-- ==== Sys2Proof/Word.lean ====
section
/-! DEFINITION. The word types of the emu6502 CORE (R6): data bytes, virtual addresses, physical offsets. -/

namespace Sys2Proof

/-- A data byte, `u8` of R11. -/
abbrev Byte := BitVec 8

/-- A virtual address or a value of `PC`, `u16` of R11. -/
abbrev Word := BitVec 16

/-- A physical address: an offset inside one backing store, `u32` of R6. -/
abbrev PAddr := BitVec 32

end Sys2Proof
end

