-- ==== Sys2Proof/Syntax.lean ====
section
/-! DEFINITION. The instructions of the emu6502 CORE: addressing modes (R32), mnemonics, operand forms, and
one constructor of `Instr` for each of the 151 rows of the opcode table (R104). -/

namespace Sys2Proof

/-- The closed enumeration of 13 addressing modes (R32, R102). -/
inductive Mode where
  | implied
  | accumulator
  | immediate
  | zeroPage
  | zeroPageX
  | zeroPageY
  | absolute
  | absoluteX
  | absoluteY
  | indirect
  | indirectX
  | indirectY
  | relative
deriving DecidableEq, Repr

/-- The 56 mnemonics (R104, R107). -/
inductive Mnemonic where
  | adc
  | and
  | asl
  | bcc
  | bcs
  | beq
  | bit
  | bmi
  | bne
  | bpl
  | brk
  | bvc
  | bvs
  | clc
  | cld
  | cli
  | clv
  | cmp
  | cpx
  | cpy
  | dec
  | dex
  | dey
  | eor
  | inc
  | inx
  | iny
  | jmp
  | jsr
  | lda
  | ldx
  | ldy
  | lsr
  | nop
  | ora
  | pha
  | php
  | pla
  | plp
  | rol
  | ror
  | rti
  | rts
  | sbc
  | sec
  | sed
  | sei
  | sta
  | stx
  | sty
  | tax
  | tay
  | tsx
  | txa
  | txs
  | tya
deriving DecidableEq, Repr

/-- The operand of a memory addressing mode, as its operand bytes give it (R102): `b1` for the two-byte
forms, `w = (b2, b1)` for the three-byte forms. -/
inductive AddrForm where
  | zeroPage  (b1 : Byte)
  | zeroPageX (b1 : Byte)
  | zeroPageY (b1 : Byte)
  | absolute  (w : Word)
  | absoluteX (w : Word)
  | absoluteY (w : Word)
  | indirect  (w : Word)
  | indirectX (b1 : Byte)
  | indirectY (b1 : Byte)
deriving DecidableEq, Repr

/-- The operand of an instruction in any of the 13 modes. -/
inductive Operand where
  | implied
  | accumulator
  | immediate (m : Byte)
  | memory    (a : AddrForm)
  | relative  (d : Byte)
deriving DecidableEq, Repr

/-- What `LoadOperand` reads (R135): the immediate byte or the byte at an effective address. -/
inductive Source where
  | immediate (m : Byte)
  | memory    (a : AddrForm)
deriving DecidableEq, Repr

/-- What `ModifyOperand` changes (R136): the accumulator or the byte at an effective address. -/
inductive Target where
  | accumulator
  | memory (a : AddrForm)
deriving DecidableEq, Repr

/-- One constructor for each row of the opcode table (R104). The suffix is the mode's short name of R102;
Implied and Relative rows, and JSR, which has one mode, carry none. -/
inductive Instr where
  | brk
  | oraIzx (b1 : Byte)
  | oraZp (b1 : Byte)
  | aslZp (b1 : Byte)
  | php
  | oraImm (m : Byte)
  | aslAcc
  | oraAbs (w : Word)
  | aslAbs (w : Word)
  | bpl (d : Byte)
  | oraIzy (b1 : Byte)
  | oraZpx (b1 : Byte)
  | aslZpx (b1 : Byte)
  | clc
  | oraAby (w : Word)
  | oraAbx (w : Word)
  | aslAbx (w : Word)
  | jsr (w : Word)
  | andIzx (b1 : Byte)
  | bitZp (b1 : Byte)
  | andZp (b1 : Byte)
  | rolZp (b1 : Byte)
  | plp
  | andImm (m : Byte)
  | rolAcc
  | bitAbs (w : Word)
  | andAbs (w : Word)
  | rolAbs (w : Word)
  | bmi (d : Byte)
  | andIzy (b1 : Byte)
  | andZpx (b1 : Byte)
  | rolZpx (b1 : Byte)
  | sec
  | andAby (w : Word)
  | andAbx (w : Word)
  | rolAbx (w : Word)
  | rti
  | eorIzx (b1 : Byte)
  | eorZp (b1 : Byte)
  | lsrZp (b1 : Byte)
  | pha
  | eorImm (m : Byte)
  | lsrAcc
  | jmpAbs (w : Word)
  | eorAbs (w : Word)
  | lsrAbs (w : Word)
  | bvc (d : Byte)
  | eorIzy (b1 : Byte)
  | eorZpx (b1 : Byte)
  | lsrZpx (b1 : Byte)
  | cli
  | eorAby (w : Word)
  | eorAbx (w : Word)
  | lsrAbx (w : Word)
  | rts
  | adcIzx (b1 : Byte)
  | adcZp (b1 : Byte)
  | rorZp (b1 : Byte)
  | pla
  | adcImm (m : Byte)
  | rorAcc
  | jmpInd (w : Word)
  | adcAbs (w : Word)
  | rorAbs (w : Word)
  | bvs (d : Byte)
  | adcIzy (b1 : Byte)
  | adcZpx (b1 : Byte)
  | rorZpx (b1 : Byte)
  | sei
  | adcAby (w : Word)
  | adcAbx (w : Word)
  | rorAbx (w : Word)
  | staIzx (b1 : Byte)
  | styZp (b1 : Byte)
  | staZp (b1 : Byte)
  | stxZp (b1 : Byte)
  | dey
  | txa
  | styAbs (w : Word)
  | staAbs (w : Word)
  | stxAbs (w : Word)
  | bcc (d : Byte)
  | staIzy (b1 : Byte)
  | styZpx (b1 : Byte)
  | staZpx (b1 : Byte)
  | stxZpy (b1 : Byte)
  | tya
  | staAby (w : Word)
  | txs
  | staAbx (w : Word)
  | ldyImm (m : Byte)
  | ldaIzx (b1 : Byte)
  | ldxImm (m : Byte)
  | ldyZp (b1 : Byte)
  | ldaZp (b1 : Byte)
  | ldxZp (b1 : Byte)
  | tay
  | ldaImm (m : Byte)
  | tax
  | ldyAbs (w : Word)
  | ldaAbs (w : Word)
  | ldxAbs (w : Word)
  | bcs (d : Byte)
  | ldaIzy (b1 : Byte)
  | ldyZpx (b1 : Byte)
  | ldaZpx (b1 : Byte)
  | ldxZpy (b1 : Byte)
  | clv
  | ldaAby (w : Word)
  | tsx
  | ldyAbx (w : Word)
  | ldaAbx (w : Word)
  | ldxAby (w : Word)
  | cpyImm (m : Byte)
  | cmpIzx (b1 : Byte)
  | cpyZp (b1 : Byte)
  | cmpZp (b1 : Byte)
  | decZp (b1 : Byte)
  | iny
  | cmpImm (m : Byte)
  | dex
  | cpyAbs (w : Word)
  | cmpAbs (w : Word)
  | decAbs (w : Word)
  | bne (d : Byte)
  | cmpIzy (b1 : Byte)
  | cmpZpx (b1 : Byte)
  | decZpx (b1 : Byte)
  | cld
  | cmpAby (w : Word)
  | cmpAbx (w : Word)
  | decAbx (w : Word)
  | cpxImm (m : Byte)
  | sbcIzx (b1 : Byte)
  | cpxZp (b1 : Byte)
  | sbcZp (b1 : Byte)
  | incZp (b1 : Byte)
  | inx
  | sbcImm (m : Byte)
  | nop
  | cpxAbs (w : Word)
  | sbcAbs (w : Word)
  | incAbs (w : Word)
  | beq (d : Byte)
  | sbcIzy (b1 : Byte)
  | sbcZpx (b1 : Byte)
  | incZpx (b1 : Byte)
  | sed
  | sbcAby (w : Word)
  | sbcAbx (w : Word)
  | incAbx (w : Word)
deriving DecidableEq, Repr

/-- The mode of a memory operand form. -/
def AddrForm.mode : AddrForm → Mode
  | .zeroPage _ => .zeroPage
  | .zeroPageX _ => .zeroPageX
  | .zeroPageY _ => .zeroPageY
  | .absolute _ => .absolute
  | .absoluteX _ => .absoluteX
  | .absoluteY _ => .absoluteY
  | .indirect _ => .indirect
  | .indirectX _ => .indirectX
  | .indirectY _ => .indirectY

/-- The mode of an operand. -/
def Operand.mode : Operand → Mode
  | .implied => .implied
  | .accumulator => .accumulator
  | .immediate _ => .immediate
  | .memory a => a.mode
  | .relative _ => .relative

/-- A source as an operand. -/
def Source.operand : Source → Operand
  | .immediate m => .immediate m
  | .memory a => .memory a

/-- A target as an operand. -/
def Target.operand : Target → Operand
  | .accumulator => .accumulator
  | .memory a => .memory a

/-- `len(mode)`: the instruction's byte length (R102, R122). -/
def Mode.length : Mode → Nat
  | .implied | .accumulator => 1
  | .immediate | .zeroPage | .zeroPageX | .zeroPageY | .indirectX | .indirectY | .relative => 2
  | .absolute | .absoluteX | .absoluteY | .indirect => 3

/-- The byte length of an instruction with this operand (R122). -/
def Operand.length (o : Operand) : Nat := o.mode.length

/-- The mnemonic of an instruction. -/
def Instr.mnemonic : Instr → Mnemonic
  | .brk => .brk
  | .oraIzx _ => .ora
  | .oraZp _ => .ora
  | .aslZp _ => .asl
  | .php => .php
  | .oraImm _ => .ora
  | .aslAcc => .asl
  | .oraAbs _ => .ora
  | .aslAbs _ => .asl
  | .bpl _ => .bpl
  | .oraIzy _ => .ora
  | .oraZpx _ => .ora
  | .aslZpx _ => .asl
  | .clc => .clc
  | .oraAby _ => .ora
  | .oraAbx _ => .ora
  | .aslAbx _ => .asl
  | .jsr _ => .jsr
  | .andIzx _ => .and
  | .bitZp _ => .bit
  | .andZp _ => .and
  | .rolZp _ => .rol
  | .plp => .plp
  | .andImm _ => .and
  | .rolAcc => .rol
  | .bitAbs _ => .bit
  | .andAbs _ => .and
  | .rolAbs _ => .rol
  | .bmi _ => .bmi
  | .andIzy _ => .and
  | .andZpx _ => .and
  | .rolZpx _ => .rol
  | .sec => .sec
  | .andAby _ => .and
  | .andAbx _ => .and
  | .rolAbx _ => .rol
  | .rti => .rti
  | .eorIzx _ => .eor
  | .eorZp _ => .eor
  | .lsrZp _ => .lsr
  | .pha => .pha
  | .eorImm _ => .eor
  | .lsrAcc => .lsr
  | .jmpAbs _ => .jmp
  | .eorAbs _ => .eor
  | .lsrAbs _ => .lsr
  | .bvc _ => .bvc
  | .eorIzy _ => .eor
  | .eorZpx _ => .eor
  | .lsrZpx _ => .lsr
  | .cli => .cli
  | .eorAby _ => .eor
  | .eorAbx _ => .eor
  | .lsrAbx _ => .lsr
  | .rts => .rts
  | .adcIzx _ => .adc
  | .adcZp _ => .adc
  | .rorZp _ => .ror
  | .pla => .pla
  | .adcImm _ => .adc
  | .rorAcc => .ror
  | .jmpInd _ => .jmp
  | .adcAbs _ => .adc
  | .rorAbs _ => .ror
  | .bvs _ => .bvs
  | .adcIzy _ => .adc
  | .adcZpx _ => .adc
  | .rorZpx _ => .ror
  | .sei => .sei
  | .adcAby _ => .adc
  | .adcAbx _ => .adc
  | .rorAbx _ => .ror
  | .staIzx _ => .sta
  | .styZp _ => .sty
  | .staZp _ => .sta
  | .stxZp _ => .stx
  | .dey => .dey
  | .txa => .txa
  | .styAbs _ => .sty
  | .staAbs _ => .sta
  | .stxAbs _ => .stx
  | .bcc _ => .bcc
  | .staIzy _ => .sta
  | .styZpx _ => .sty
  | .staZpx _ => .sta
  | .stxZpy _ => .stx
  | .tya => .tya
  | .staAby _ => .sta
  | .txs => .txs
  | .staAbx _ => .sta
  | .ldyImm _ => .ldy
  | .ldaIzx _ => .lda
  | .ldxImm _ => .ldx
  | .ldyZp _ => .ldy
  | .ldaZp _ => .lda
  | .ldxZp _ => .ldx
  | .tay => .tay
  | .ldaImm _ => .lda
  | .tax => .tax
  | .ldyAbs _ => .ldy
  | .ldaAbs _ => .lda
  | .ldxAbs _ => .ldx
  | .bcs _ => .bcs
  | .ldaIzy _ => .lda
  | .ldyZpx _ => .ldy
  | .ldaZpx _ => .lda
  | .ldxZpy _ => .ldx
  | .clv => .clv
  | .ldaAby _ => .lda
  | .tsx => .tsx
  | .ldyAbx _ => .ldy
  | .ldaAbx _ => .lda
  | .ldxAby _ => .ldx
  | .cpyImm _ => .cpy
  | .cmpIzx _ => .cmp
  | .cpyZp _ => .cpy
  | .cmpZp _ => .cmp
  | .decZp _ => .dec
  | .iny => .iny
  | .cmpImm _ => .cmp
  | .dex => .dex
  | .cpyAbs _ => .cpy
  | .cmpAbs _ => .cmp
  | .decAbs _ => .dec
  | .bne _ => .bne
  | .cmpIzy _ => .cmp
  | .cmpZpx _ => .cmp
  | .decZpx _ => .dec
  | .cld => .cld
  | .cmpAby _ => .cmp
  | .cmpAbx _ => .cmp
  | .decAbx _ => .dec
  | .cpxImm _ => .cpx
  | .sbcIzx _ => .sbc
  | .cpxZp _ => .cpx
  | .sbcZp _ => .sbc
  | .incZp _ => .inc
  | .inx => .inx
  | .sbcImm _ => .sbc
  | .nop => .nop
  | .cpxAbs _ => .cpx
  | .sbcAbs _ => .sbc
  | .incAbs _ => .inc
  | .beq _ => .beq
  | .sbcIzy _ => .sbc
  | .sbcZpx _ => .sbc
  | .incZpx _ => .inc
  | .sed => .sed
  | .sbcAby _ => .sbc
  | .sbcAbx _ => .sbc
  | .incAbx _ => .inc

/-- The operand of an instruction. -/
def Instr.operand : Instr → Operand
  | .brk => .implied
  | .oraIzx b1 => .memory (.indirectX b1)
  | .oraZp b1 => .memory (.zeroPage b1)
  | .aslZp b1 => .memory (.zeroPage b1)
  | .php => .implied
  | .oraImm m => .immediate m
  | .aslAcc => .accumulator
  | .oraAbs w => .memory (.absolute w)
  | .aslAbs w => .memory (.absolute w)
  | .bpl d => .relative d
  | .oraIzy b1 => .memory (.indirectY b1)
  | .oraZpx b1 => .memory (.zeroPageX b1)
  | .aslZpx b1 => .memory (.zeroPageX b1)
  | .clc => .implied
  | .oraAby w => .memory (.absoluteY w)
  | .oraAbx w => .memory (.absoluteX w)
  | .aslAbx w => .memory (.absoluteX w)
  | .jsr w => .memory (.absolute w)
  | .andIzx b1 => .memory (.indirectX b1)
  | .bitZp b1 => .memory (.zeroPage b1)
  | .andZp b1 => .memory (.zeroPage b1)
  | .rolZp b1 => .memory (.zeroPage b1)
  | .plp => .implied
  | .andImm m => .immediate m
  | .rolAcc => .accumulator
  | .bitAbs w => .memory (.absolute w)
  | .andAbs w => .memory (.absolute w)
  | .rolAbs w => .memory (.absolute w)
  | .bmi d => .relative d
  | .andIzy b1 => .memory (.indirectY b1)
  | .andZpx b1 => .memory (.zeroPageX b1)
  | .rolZpx b1 => .memory (.zeroPageX b1)
  | .sec => .implied
  | .andAby w => .memory (.absoluteY w)
  | .andAbx w => .memory (.absoluteX w)
  | .rolAbx w => .memory (.absoluteX w)
  | .rti => .implied
  | .eorIzx b1 => .memory (.indirectX b1)
  | .eorZp b1 => .memory (.zeroPage b1)
  | .lsrZp b1 => .memory (.zeroPage b1)
  | .pha => .implied
  | .eorImm m => .immediate m
  | .lsrAcc => .accumulator
  | .jmpAbs w => .memory (.absolute w)
  | .eorAbs w => .memory (.absolute w)
  | .lsrAbs w => .memory (.absolute w)
  | .bvc d => .relative d
  | .eorIzy b1 => .memory (.indirectY b1)
  | .eorZpx b1 => .memory (.zeroPageX b1)
  | .lsrZpx b1 => .memory (.zeroPageX b1)
  | .cli => .implied
  | .eorAby w => .memory (.absoluteY w)
  | .eorAbx w => .memory (.absoluteX w)
  | .lsrAbx w => .memory (.absoluteX w)
  | .rts => .implied
  | .adcIzx b1 => .memory (.indirectX b1)
  | .adcZp b1 => .memory (.zeroPage b1)
  | .rorZp b1 => .memory (.zeroPage b1)
  | .pla => .implied
  | .adcImm m => .immediate m
  | .rorAcc => .accumulator
  | .jmpInd w => .memory (.indirect w)
  | .adcAbs w => .memory (.absolute w)
  | .rorAbs w => .memory (.absolute w)
  | .bvs d => .relative d
  | .adcIzy b1 => .memory (.indirectY b1)
  | .adcZpx b1 => .memory (.zeroPageX b1)
  | .rorZpx b1 => .memory (.zeroPageX b1)
  | .sei => .implied
  | .adcAby w => .memory (.absoluteY w)
  | .adcAbx w => .memory (.absoluteX w)
  | .rorAbx w => .memory (.absoluteX w)
  | .staIzx b1 => .memory (.indirectX b1)
  | .styZp b1 => .memory (.zeroPage b1)
  | .staZp b1 => .memory (.zeroPage b1)
  | .stxZp b1 => .memory (.zeroPage b1)
  | .dey => .implied
  | .txa => .implied
  | .styAbs w => .memory (.absolute w)
  | .staAbs w => .memory (.absolute w)
  | .stxAbs w => .memory (.absolute w)
  | .bcc d => .relative d
  | .staIzy b1 => .memory (.indirectY b1)
  | .styZpx b1 => .memory (.zeroPageX b1)
  | .staZpx b1 => .memory (.zeroPageX b1)
  | .stxZpy b1 => .memory (.zeroPageY b1)
  | .tya => .implied
  | .staAby w => .memory (.absoluteY w)
  | .txs => .implied
  | .staAbx w => .memory (.absoluteX w)
  | .ldyImm m => .immediate m
  | .ldaIzx b1 => .memory (.indirectX b1)
  | .ldxImm m => .immediate m
  | .ldyZp b1 => .memory (.zeroPage b1)
  | .ldaZp b1 => .memory (.zeroPage b1)
  | .ldxZp b1 => .memory (.zeroPage b1)
  | .tay => .implied
  | .ldaImm m => .immediate m
  | .tax => .implied
  | .ldyAbs w => .memory (.absolute w)
  | .ldaAbs w => .memory (.absolute w)
  | .ldxAbs w => .memory (.absolute w)
  | .bcs d => .relative d
  | .ldaIzy b1 => .memory (.indirectY b1)
  | .ldyZpx b1 => .memory (.zeroPageX b1)
  | .ldaZpx b1 => .memory (.zeroPageX b1)
  | .ldxZpy b1 => .memory (.zeroPageY b1)
  | .clv => .implied
  | .ldaAby w => .memory (.absoluteY w)
  | .tsx => .implied
  | .ldyAbx w => .memory (.absoluteX w)
  | .ldaAbx w => .memory (.absoluteX w)
  | .ldxAby w => .memory (.absoluteY w)
  | .cpyImm m => .immediate m
  | .cmpIzx b1 => .memory (.indirectX b1)
  | .cpyZp b1 => .memory (.zeroPage b1)
  | .cmpZp b1 => .memory (.zeroPage b1)
  | .decZp b1 => .memory (.zeroPage b1)
  | .iny => .implied
  | .cmpImm m => .immediate m
  | .dex => .implied
  | .cpyAbs w => .memory (.absolute w)
  | .cmpAbs w => .memory (.absolute w)
  | .decAbs w => .memory (.absolute w)
  | .bne d => .relative d
  | .cmpIzy b1 => .memory (.indirectY b1)
  | .cmpZpx b1 => .memory (.zeroPageX b1)
  | .decZpx b1 => .memory (.zeroPageX b1)
  | .cld => .implied
  | .cmpAby w => .memory (.absoluteY w)
  | .cmpAbx w => .memory (.absoluteX w)
  | .decAbx w => .memory (.absoluteX w)
  | .cpxImm m => .immediate m
  | .sbcIzx b1 => .memory (.indirectX b1)
  | .cpxZp b1 => .memory (.zeroPage b1)
  | .sbcZp b1 => .memory (.zeroPage b1)
  | .incZp b1 => .memory (.zeroPage b1)
  | .inx => .implied
  | .sbcImm m => .immediate m
  | .nop => .implied
  | .cpxAbs w => .memory (.absolute w)
  | .sbcAbs w => .memory (.absolute w)
  | .incAbs w => .memory (.absolute w)
  | .beq d => .relative d
  | .sbcIzy b1 => .memory (.indirectY b1)
  | .sbcZpx b1 => .memory (.zeroPageX b1)
  | .incZpx b1 => .memory (.zeroPageX b1)
  | .sed => .implied
  | .sbcAby w => .memory (.absoluteY w)
  | .sbcAbx w => .memory (.absoluteX w)
  | .incAbx w => .memory (.absoluteX w)

end Sys2Proof
end

