-- ==== Sys2Proof/Decode.lean ====
section
/-! DEFINITION. The decoder and the encoder, both from the dispatch table of R104. -/

namespace Sys2Proof

/-- Why a byte sequence is not an instruction. -/
inductive DecodeError where
  /-- No byte at all, or fewer operand bytes than the mode needs (R100). -/
  | truncated
  /-- The first byte is not one of the 151 opcodes (R108). -/
  | illegalOpcode (op : Byte)
  /-- The dispatch table binds the opcode to a mode its mnemonic lacks (R256); unreachable with `dispatchTable`. -/
  | unsupportedMode (op : Byte)
deriving DecidableEq, Repr

/-- A row of the dispatch table: opcode, mnemonic, mode (R104). -/
structure DispatchRow where
  opcode   : Byte
  mnemonic : Mnemonic
  mode     : Mode
deriving DecidableEq, Repr

/-- The opcodes 00 to 0F (R105). -/
def dispatchRows0 : List DispatchRow :=
  [⟨0x00#8, .brk, .implied⟩,
   ⟨0x01#8, .ora, .indirectX⟩,
   ⟨0x05#8, .ora, .zeroPage⟩,
   ⟨0x06#8, .asl, .zeroPage⟩,
   ⟨0x08#8, .php, .implied⟩,
   ⟨0x09#8, .ora, .immediate⟩,
   ⟨0x0A#8, .asl, .accumulator⟩,
   ⟨0x0D#8, .ora, .absolute⟩,
   ⟨0x0E#8, .asl, .absolute⟩]

/-- The opcodes 10 to 1F (R105). -/
def dispatchRows1 : List DispatchRow :=
  [⟨0x10#8, .bpl, .relative⟩,
   ⟨0x11#8, .ora, .indirectY⟩,
   ⟨0x15#8, .ora, .zeroPageX⟩,
   ⟨0x16#8, .asl, .zeroPageX⟩,
   ⟨0x18#8, .clc, .implied⟩,
   ⟨0x19#8, .ora, .absoluteY⟩,
   ⟨0x1D#8, .ora, .absoluteX⟩,
   ⟨0x1E#8, .asl, .absoluteX⟩]

/-- The opcodes 20 to 2F (R105). -/
def dispatchRows2 : List DispatchRow :=
  [⟨0x20#8, .jsr, .absolute⟩,
   ⟨0x21#8, .and, .indirectX⟩,
   ⟨0x24#8, .bit, .zeroPage⟩,
   ⟨0x25#8, .and, .zeroPage⟩,
   ⟨0x26#8, .rol, .zeroPage⟩,
   ⟨0x28#8, .plp, .implied⟩,
   ⟨0x29#8, .and, .immediate⟩,
   ⟨0x2A#8, .rol, .accumulator⟩,
   ⟨0x2C#8, .bit, .absolute⟩,
   ⟨0x2D#8, .and, .absolute⟩,
   ⟨0x2E#8, .rol, .absolute⟩]

/-- The opcodes 30 to 3F (R105). -/
def dispatchRows3 : List DispatchRow :=
  [⟨0x30#8, .bmi, .relative⟩,
   ⟨0x31#8, .and, .indirectY⟩,
   ⟨0x35#8, .and, .zeroPageX⟩,
   ⟨0x36#8, .rol, .zeroPageX⟩,
   ⟨0x38#8, .sec, .implied⟩,
   ⟨0x39#8, .and, .absoluteY⟩,
   ⟨0x3D#8, .and, .absoluteX⟩,
   ⟨0x3E#8, .rol, .absoluteX⟩]

/-- The opcodes 40 to 4F (R105). -/
def dispatchRows4 : List DispatchRow :=
  [⟨0x40#8, .rti, .implied⟩,
   ⟨0x41#8, .eor, .indirectX⟩,
   ⟨0x45#8, .eor, .zeroPage⟩,
   ⟨0x46#8, .lsr, .zeroPage⟩,
   ⟨0x48#8, .pha, .implied⟩,
   ⟨0x49#8, .eor, .immediate⟩,
   ⟨0x4A#8, .lsr, .accumulator⟩,
   ⟨0x4C#8, .jmp, .absolute⟩,
   ⟨0x4D#8, .eor, .absolute⟩,
   ⟨0x4E#8, .lsr, .absolute⟩]

/-- The opcodes 50 to 5F (R105). -/
def dispatchRows5 : List DispatchRow :=
  [⟨0x50#8, .bvc, .relative⟩,
   ⟨0x51#8, .eor, .indirectY⟩,
   ⟨0x55#8, .eor, .zeroPageX⟩,
   ⟨0x56#8, .lsr, .zeroPageX⟩,
   ⟨0x58#8, .cli, .implied⟩,
   ⟨0x59#8, .eor, .absoluteY⟩,
   ⟨0x5D#8, .eor, .absoluteX⟩,
   ⟨0x5E#8, .lsr, .absoluteX⟩]

/-- The opcodes 60 to 6F (R105). -/
def dispatchRows6 : List DispatchRow :=
  [⟨0x60#8, .rts, .implied⟩,
   ⟨0x61#8, .adc, .indirectX⟩,
   ⟨0x65#8, .adc, .zeroPage⟩,
   ⟨0x66#8, .ror, .zeroPage⟩,
   ⟨0x68#8, .pla, .implied⟩,
   ⟨0x69#8, .adc, .immediate⟩,
   ⟨0x6A#8, .ror, .accumulator⟩,
   ⟨0x6C#8, .jmp, .indirect⟩,
   ⟨0x6D#8, .adc, .absolute⟩,
   ⟨0x6E#8, .ror, .absolute⟩]

/-- The opcodes 70 to 7F (R105). -/
def dispatchRows7 : List DispatchRow :=
  [⟨0x70#8, .bvs, .relative⟩,
   ⟨0x71#8, .adc, .indirectY⟩,
   ⟨0x75#8, .adc, .zeroPageX⟩,
   ⟨0x76#8, .ror, .zeroPageX⟩,
   ⟨0x78#8, .sei, .implied⟩,
   ⟨0x79#8, .adc, .absoluteY⟩,
   ⟨0x7D#8, .adc, .absoluteX⟩,
   ⟨0x7E#8, .ror, .absoluteX⟩]

/-- The opcodes 80 to 8F (R105). -/
def dispatchRows8 : List DispatchRow :=
  [⟨0x81#8, .sta, .indirectX⟩,
   ⟨0x84#8, .sty, .zeroPage⟩,
   ⟨0x85#8, .sta, .zeroPage⟩,
   ⟨0x86#8, .stx, .zeroPage⟩,
   ⟨0x88#8, .dey, .implied⟩,
   ⟨0x8A#8, .txa, .implied⟩,
   ⟨0x8C#8, .sty, .absolute⟩,
   ⟨0x8D#8, .sta, .absolute⟩,
   ⟨0x8E#8, .stx, .absolute⟩]

/-- The opcodes 90 to 9F (R105). -/
def dispatchRows9 : List DispatchRow :=
  [⟨0x90#8, .bcc, .relative⟩,
   ⟨0x91#8, .sta, .indirectY⟩,
   ⟨0x94#8, .sty, .zeroPageX⟩,
   ⟨0x95#8, .sta, .zeroPageX⟩,
   ⟨0x96#8, .stx, .zeroPageY⟩,
   ⟨0x98#8, .tya, .implied⟩,
   ⟨0x99#8, .sta, .absoluteY⟩,
   ⟨0x9A#8, .txs, .implied⟩,
   ⟨0x9D#8, .sta, .absoluteX⟩]

/-- The opcodes A0 to AF (R105). -/
def dispatchRowsA : List DispatchRow :=
  [⟨0xA0#8, .ldy, .immediate⟩,
   ⟨0xA1#8, .lda, .indirectX⟩,
   ⟨0xA2#8, .ldx, .immediate⟩,
   ⟨0xA4#8, .ldy, .zeroPage⟩,
   ⟨0xA5#8, .lda, .zeroPage⟩,
   ⟨0xA6#8, .ldx, .zeroPage⟩,
   ⟨0xA8#8, .tay, .implied⟩,
   ⟨0xA9#8, .lda, .immediate⟩,
   ⟨0xAA#8, .tax, .implied⟩,
   ⟨0xAC#8, .ldy, .absolute⟩,
   ⟨0xAD#8, .lda, .absolute⟩,
   ⟨0xAE#8, .ldx, .absolute⟩]

/-- The opcodes B0 to BF (R105). -/
def dispatchRowsB : List DispatchRow :=
  [⟨0xB0#8, .bcs, .relative⟩,
   ⟨0xB1#8, .lda, .indirectY⟩,
   ⟨0xB4#8, .ldy, .zeroPageX⟩,
   ⟨0xB5#8, .lda, .zeroPageX⟩,
   ⟨0xB6#8, .ldx, .zeroPageY⟩,
   ⟨0xB8#8, .clv, .implied⟩,
   ⟨0xB9#8, .lda, .absoluteY⟩,
   ⟨0xBA#8, .tsx, .implied⟩,
   ⟨0xBC#8, .ldy, .absoluteX⟩,
   ⟨0xBD#8, .lda, .absoluteX⟩,
   ⟨0xBE#8, .ldx, .absoluteY⟩]

/-- The opcodes C0 to CF (R105). -/
def dispatchRowsC : List DispatchRow :=
  [⟨0xC0#8, .cpy, .immediate⟩,
   ⟨0xC1#8, .cmp, .indirectX⟩,
   ⟨0xC4#8, .cpy, .zeroPage⟩,
   ⟨0xC5#8, .cmp, .zeroPage⟩,
   ⟨0xC6#8, .dec, .zeroPage⟩,
   ⟨0xC8#8, .iny, .implied⟩,
   ⟨0xC9#8, .cmp, .immediate⟩,
   ⟨0xCA#8, .dex, .implied⟩,
   ⟨0xCC#8, .cpy, .absolute⟩,
   ⟨0xCD#8, .cmp, .absolute⟩,
   ⟨0xCE#8, .dec, .absolute⟩]

/-- The opcodes D0 to DF (R105). -/
def dispatchRowsD : List DispatchRow :=
  [⟨0xD0#8, .bne, .relative⟩,
   ⟨0xD1#8, .cmp, .indirectY⟩,
   ⟨0xD5#8, .cmp, .zeroPageX⟩,
   ⟨0xD6#8, .dec, .zeroPageX⟩,
   ⟨0xD8#8, .cld, .implied⟩,
   ⟨0xD9#8, .cmp, .absoluteY⟩,
   ⟨0xDD#8, .cmp, .absoluteX⟩,
   ⟨0xDE#8, .dec, .absoluteX⟩]

/-- The opcodes E0 to EF (R105). -/
def dispatchRowsE : List DispatchRow :=
  [⟨0xE0#8, .cpx, .immediate⟩,
   ⟨0xE1#8, .sbc, .indirectX⟩,
   ⟨0xE4#8, .cpx, .zeroPage⟩,
   ⟨0xE5#8, .sbc, .zeroPage⟩,
   ⟨0xE6#8, .inc, .zeroPage⟩,
   ⟨0xE8#8, .inx, .implied⟩,
   ⟨0xE9#8, .sbc, .immediate⟩,
   ⟨0xEA#8, .nop, .implied⟩,
   ⟨0xEC#8, .cpx, .absolute⟩,
   ⟨0xED#8, .sbc, .absolute⟩,
   ⟨0xEE#8, .inc, .absolute⟩]

/-- The opcodes F0 to FF (R105). -/
def dispatchRowsF : List DispatchRow :=
  [⟨0xF0#8, .beq, .relative⟩,
   ⟨0xF1#8, .sbc, .indirectY⟩,
   ⟨0xF5#8, .sbc, .zeroPageX⟩,
   ⟨0xF6#8, .inc, .zeroPageX⟩,
   ⟨0xF8#8, .sed, .implied⟩,
   ⟨0xF9#8, .sbc, .absoluteY⟩,
   ⟨0xFD#8, .sbc, .absoluteX⟩,
   ⟨0xFE#8, .inc, .absoluteX⟩]

/-- The dispatch table `DISPATCH`: the 151 opcodes, in ascending order (R104, R105). -/
def dispatchTable : List DispatchRow :=
  dispatchRows0 ++ dispatchRows1 ++ dispatchRows2 ++ dispatchRows3 ++ dispatchRows4 ++ dispatchRows5 ++ dispatchRows6 ++ dispatchRows7 ++
  dispatchRows8 ++ dispatchRows9 ++ dispatchRowsA ++ dispatchRowsB ++ dispatchRowsC ++ dispatchRowsD ++ dispatchRowsE ++ dispatchRowsF

/-- The first row of a table whose opcode is `op`. -/
def findOpcode (op : Byte) : List DispatchRow → Option DispatchRow
  | [] => none
  | r :: rest => if r.opcode = op then some r else findOpcode op rest

/-- The first row of a table for a mnemonic in a mode. -/
def findForm (m : Mnemonic) (md : Mode) : List DispatchRow → Option DispatchRow
  | [] => none
  | r :: rest => if r.mnemonic = m ∧ r.mode = md then some r else findForm m md rest

/-- `DISPATCH[op]` (R120): the mnemonic and the mode an opcode is bound to, none for an illegal opcode. -/
def dispatch (op : Byte) : Option (Mnemonic × Mode) :=
  (findOpcode op dispatchTable).map fun r => (r.mnemonic, r.mode)

/-- The instruction with this mnemonic and this operand, none where R104 has no such row (R106, R256). -/
def Instr.ofForm (m : Mnemonic) (o : Operand) : Option Instr :=
  match m with
  | .adc =>
    match o with
    | .memory (.indirectX b1) => some (.adcIzx b1)
    | .memory (.zeroPage b1) => some (.adcZp b1)
    | .immediate m => some (.adcImm m)
    | .memory (.absolute w) => some (.adcAbs w)
    | .memory (.indirectY b1) => some (.adcIzy b1)
    | .memory (.zeroPageX b1) => some (.adcZpx b1)
    | .memory (.absoluteY w) => some (.adcAby w)
    | .memory (.absoluteX w) => some (.adcAbx w)
    | _ => none
  | .and =>
    match o with
    | .memory (.indirectX b1) => some (.andIzx b1)
    | .memory (.zeroPage b1) => some (.andZp b1)
    | .immediate m => some (.andImm m)
    | .memory (.absolute w) => some (.andAbs w)
    | .memory (.indirectY b1) => some (.andIzy b1)
    | .memory (.zeroPageX b1) => some (.andZpx b1)
    | .memory (.absoluteY w) => some (.andAby w)
    | .memory (.absoluteX w) => some (.andAbx w)
    | _ => none
  | .asl =>
    match o with
    | .memory (.zeroPage b1) => some (.aslZp b1)
    | .accumulator => some .aslAcc
    | .memory (.absolute w) => some (.aslAbs w)
    | .memory (.zeroPageX b1) => some (.aslZpx b1)
    | .memory (.absoluteX w) => some (.aslAbx w)
    | _ => none
  | .bcc =>
    match o with
    | .relative d => some (.bcc d)
    | _ => none
  | .bcs =>
    match o with
    | .relative d => some (.bcs d)
    | _ => none
  | .beq =>
    match o with
    | .relative d => some (.beq d)
    | _ => none
  | .bit =>
    match o with
    | .memory (.zeroPage b1) => some (.bitZp b1)
    | .memory (.absolute w) => some (.bitAbs w)
    | _ => none
  | .bmi =>
    match o with
    | .relative d => some (.bmi d)
    | _ => none
  | .bne =>
    match o with
    | .relative d => some (.bne d)
    | _ => none
  | .bpl =>
    match o with
    | .relative d => some (.bpl d)
    | _ => none
  | .brk =>
    match o with
    | .implied => some .brk
    | _ => none
  | .bvc =>
    match o with
    | .relative d => some (.bvc d)
    | _ => none
  | .bvs =>
    match o with
    | .relative d => some (.bvs d)
    | _ => none
  | .clc =>
    match o with
    | .implied => some .clc
    | _ => none
  | .cld =>
    match o with
    | .implied => some .cld
    | _ => none
  | .cli =>
    match o with
    | .implied => some .cli
    | _ => none
  | .clv =>
    match o with
    | .implied => some .clv
    | _ => none
  | .cmp =>
    match o with
    | .memory (.indirectX b1) => some (.cmpIzx b1)
    | .memory (.zeroPage b1) => some (.cmpZp b1)
    | .immediate m => some (.cmpImm m)
    | .memory (.absolute w) => some (.cmpAbs w)
    | .memory (.indirectY b1) => some (.cmpIzy b1)
    | .memory (.zeroPageX b1) => some (.cmpZpx b1)
    | .memory (.absoluteY w) => some (.cmpAby w)
    | .memory (.absoluteX w) => some (.cmpAbx w)
    | _ => none
  | .cpx =>
    match o with
    | .immediate m => some (.cpxImm m)
    | .memory (.zeroPage b1) => some (.cpxZp b1)
    | .memory (.absolute w) => some (.cpxAbs w)
    | _ => none
  | .cpy =>
    match o with
    | .immediate m => some (.cpyImm m)
    | .memory (.zeroPage b1) => some (.cpyZp b1)
    | .memory (.absolute w) => some (.cpyAbs w)
    | _ => none
  | .dec =>
    match o with
    | .memory (.zeroPage b1) => some (.decZp b1)
    | .memory (.absolute w) => some (.decAbs w)
    | .memory (.zeroPageX b1) => some (.decZpx b1)
    | .memory (.absoluteX w) => some (.decAbx w)
    | _ => none
  | .dex =>
    match o with
    | .implied => some .dex
    | _ => none
  | .dey =>
    match o with
    | .implied => some .dey
    | _ => none
  | .eor =>
    match o with
    | .memory (.indirectX b1) => some (.eorIzx b1)
    | .memory (.zeroPage b1) => some (.eorZp b1)
    | .immediate m => some (.eorImm m)
    | .memory (.absolute w) => some (.eorAbs w)
    | .memory (.indirectY b1) => some (.eorIzy b1)
    | .memory (.zeroPageX b1) => some (.eorZpx b1)
    | .memory (.absoluteY w) => some (.eorAby w)
    | .memory (.absoluteX w) => some (.eorAbx w)
    | _ => none
  | .inc =>
    match o with
    | .memory (.zeroPage b1) => some (.incZp b1)
    | .memory (.absolute w) => some (.incAbs w)
    | .memory (.zeroPageX b1) => some (.incZpx b1)
    | .memory (.absoluteX w) => some (.incAbx w)
    | _ => none
  | .inx =>
    match o with
    | .implied => some .inx
    | _ => none
  | .iny =>
    match o with
    | .implied => some .iny
    | _ => none
  | .jmp =>
    match o with
    | .memory (.absolute w) => some (.jmpAbs w)
    | .memory (.indirect w) => some (.jmpInd w)
    | _ => none
  | .jsr =>
    match o with
    | .memory (.absolute w) => some (.jsr w)
    | _ => none
  | .lda =>
    match o with
    | .memory (.indirectX b1) => some (.ldaIzx b1)
    | .memory (.zeroPage b1) => some (.ldaZp b1)
    | .immediate m => some (.ldaImm m)
    | .memory (.absolute w) => some (.ldaAbs w)
    | .memory (.indirectY b1) => some (.ldaIzy b1)
    | .memory (.zeroPageX b1) => some (.ldaZpx b1)
    | .memory (.absoluteY w) => some (.ldaAby w)
    | .memory (.absoluteX w) => some (.ldaAbx w)
    | _ => none
  | .ldx =>
    match o with
    | .immediate m => some (.ldxImm m)
    | .memory (.zeroPage b1) => some (.ldxZp b1)
    | .memory (.absolute w) => some (.ldxAbs w)
    | .memory (.zeroPageY b1) => some (.ldxZpy b1)
    | .memory (.absoluteY w) => some (.ldxAby w)
    | _ => none
  | .ldy =>
    match o with
    | .immediate m => some (.ldyImm m)
    | .memory (.zeroPage b1) => some (.ldyZp b1)
    | .memory (.absolute w) => some (.ldyAbs w)
    | .memory (.zeroPageX b1) => some (.ldyZpx b1)
    | .memory (.absoluteX w) => some (.ldyAbx w)
    | _ => none
  | .lsr =>
    match o with
    | .memory (.zeroPage b1) => some (.lsrZp b1)
    | .accumulator => some .lsrAcc
    | .memory (.absolute w) => some (.lsrAbs w)
    | .memory (.zeroPageX b1) => some (.lsrZpx b1)
    | .memory (.absoluteX w) => some (.lsrAbx w)
    | _ => none
  | .nop =>
    match o with
    | .implied => some .nop
    | _ => none
  | .ora =>
    match o with
    | .memory (.indirectX b1) => some (.oraIzx b1)
    | .memory (.zeroPage b1) => some (.oraZp b1)
    | .immediate m => some (.oraImm m)
    | .memory (.absolute w) => some (.oraAbs w)
    | .memory (.indirectY b1) => some (.oraIzy b1)
    | .memory (.zeroPageX b1) => some (.oraZpx b1)
    | .memory (.absoluteY w) => some (.oraAby w)
    | .memory (.absoluteX w) => some (.oraAbx w)
    | _ => none
  | .pha =>
    match o with
    | .implied => some .pha
    | _ => none
  | .php =>
    match o with
    | .implied => some .php
    | _ => none
  | .pla =>
    match o with
    | .implied => some .pla
    | _ => none
  | .plp =>
    match o with
    | .implied => some .plp
    | _ => none
  | .rol =>
    match o with
    | .memory (.zeroPage b1) => some (.rolZp b1)
    | .accumulator => some .rolAcc
    | .memory (.absolute w) => some (.rolAbs w)
    | .memory (.zeroPageX b1) => some (.rolZpx b1)
    | .memory (.absoluteX w) => some (.rolAbx w)
    | _ => none
  | .ror =>
    match o with
    | .memory (.zeroPage b1) => some (.rorZp b1)
    | .accumulator => some .rorAcc
    | .memory (.absolute w) => some (.rorAbs w)
    | .memory (.zeroPageX b1) => some (.rorZpx b1)
    | .memory (.absoluteX w) => some (.rorAbx w)
    | _ => none
  | .rti =>
    match o with
    | .implied => some .rti
    | _ => none
  | .rts =>
    match o with
    | .implied => some .rts
    | _ => none
  | .sbc =>
    match o with
    | .memory (.indirectX b1) => some (.sbcIzx b1)
    | .memory (.zeroPage b1) => some (.sbcZp b1)
    | .immediate m => some (.sbcImm m)
    | .memory (.absolute w) => some (.sbcAbs w)
    | .memory (.indirectY b1) => some (.sbcIzy b1)
    | .memory (.zeroPageX b1) => some (.sbcZpx b1)
    | .memory (.absoluteY w) => some (.sbcAby w)
    | .memory (.absoluteX w) => some (.sbcAbx w)
    | _ => none
  | .sec =>
    match o with
    | .implied => some .sec
    | _ => none
  | .sed =>
    match o with
    | .implied => some .sed
    | _ => none
  | .sei =>
    match o with
    | .implied => some .sei
    | _ => none
  | .sta =>
    match o with
    | .memory (.indirectX b1) => some (.staIzx b1)
    | .memory (.zeroPage b1) => some (.staZp b1)
    | .memory (.absolute w) => some (.staAbs w)
    | .memory (.indirectY b1) => some (.staIzy b1)
    | .memory (.zeroPageX b1) => some (.staZpx b1)
    | .memory (.absoluteY w) => some (.staAby w)
    | .memory (.absoluteX w) => some (.staAbx w)
    | _ => none
  | .stx =>
    match o with
    | .memory (.zeroPage b1) => some (.stxZp b1)
    | .memory (.absolute w) => some (.stxAbs w)
    | .memory (.zeroPageY b1) => some (.stxZpy b1)
    | _ => none
  | .sty =>
    match o with
    | .memory (.zeroPage b1) => some (.styZp b1)
    | .memory (.absolute w) => some (.styAbs w)
    | .memory (.zeroPageX b1) => some (.styZpx b1)
    | _ => none
  | .tax =>
    match o with
    | .implied => some .tax
    | _ => none
  | .tay =>
    match o with
    | .implied => some .tay
    | _ => none
  | .tsx =>
    match o with
    | .implied => some .tsx
    | _ => none
  | .txa =>
    match o with
    | .implied => some .txa
    | _ => none
  | .txs =>
    match o with
    | .implied => some .txs
    | _ => none
  | .tya =>
    match o with
    | .implied => some .tya
    | _ => none

/-- The 16-bit operand of format F3: `b1` is bits 7:0 and `b2` is bits 15:8 (R101, R103). -/
def operandWord (b1 b2 : Byte) : Word := b2 ++ b1

/-- The operand a mode reads from its operand bytes (R102, R103). -/
def Operand.ofBytes (md : Mode) (b1 b2 : Byte) : Operand :=
  match md with
  | .implied => .implied
  | .accumulator => .accumulator
  | .immediate => .immediate b1
  | .zeroPage => .memory (.zeroPage b1)
  | .zeroPageX => .memory (.zeroPageX b1)
  | .zeroPageY => .memory (.zeroPageY b1)
  | .absolute => .memory (.absolute (operandWord b1 b2))
  | .absoluteX => .memory (.absoluteX (operandWord b1 b2))
  | .absoluteY => .memory (.absoluteY (operandWord b1 b2))
  | .indirect => .memory (.indirect (operandWord b1 b2))
  | .indirectX => .memory (.indirectX b1)
  | .indirectY => .memory (.indirectY b1)
  | .relative => .relative b1

/-- The operand bytes after an opcode of this mode, and the bytes left over (R101). -/
def takeOperand (md : Mode) (bs : List Byte) : Option (Operand × List Byte) :=
  match md.length, bs with
  | 1, rest => some (Operand.ofBytes md 0 0, rest)
  | 2, b1 :: rest => some (Operand.ofBytes md b1 0, rest)
  | 3, b1 :: b2 :: rest => some (Operand.ofBytes md b1 b2, rest)
  | _, _ => none

/-- The instruction a byte sequence begins with and the bytes after it (R100). Total: every sequence gives
an instruction or an error by name. -/
def decode (bytes : List Byte) : Except DecodeError (Instr × List Byte) :=
  match bytes with
  | [] => .error .truncated
  | op :: bs =>
    match dispatch op with
    | none => .error (.illegalOpcode op)
    | some (m, md) =>
      match takeOperand md bs with
      | none => .error .truncated
      | some (o, rest) =>
        match Instr.ofForm m o with
        | none => .error (.unsupportedMode op)
        | some i => .ok (i, rest)

/-- The operand bytes of a memory operand form, low byte first (R101). -/
def AddrForm.bytes : AddrForm → List Byte
  | .zeroPage b1 | .zeroPageX b1 | .zeroPageY b1 | .indirectX b1 | .indirectY b1 => [b1]
  | .absolute w | .absoluteX w | .absoluteY w | .indirect w => [w.extractLsb' 0 8, w.extractLsb' 8 8]

/-- The operand bytes of an operand (R101). -/
def Operand.bytes : Operand → List Byte
  | .implied | .accumulator => []
  | .immediate m => [m]
  | .memory a => a.bytes
  | .relative d => [d]

/-- The opcode of a mnemonic in a mode, none where R104 has no such cell. -/
def opcodeOf (m : Mnemonic) (md : Mode) : Option Byte := (findForm m md dispatchTable).map (·.opcode)

/-- The bytes of an instruction in address order: opcode, then operand bytes (R101). Every `Instr` has an
opcode; the default is never used (Sys2Proof/Laws/Decode.lean). -/
def encode (i : Instr) : List Byte :=
  (opcodeOf i.mnemonic i.operand.mode).getD 0 :: i.operand.bytes

/-- The three bytes, lowest address first, of an instruction numbered as the opcode table numbers it: bit 0 is
the least significant bit of the first byte, bits from `nbits` up are 0. -/
def tableBytes (nbits w : Nat) : List Byte :=
  let v := w % 2 ^ nbits
  [BitVec.ofNat 8 v, BitVec.ofNat 8 (v / 256), BitVec.ofNat 8 (v / 65536)]

/-- The instruction `decode` reads from an instruction numbered as the opcode table numbers it. -/
def decodeTableWord (nbits w : Nat) : Option Instr :=
  match decode (tableBytes nbits w) with
  | .ok (i, _) => some i
  | .error _ => none

end Sys2Proof
end

