-- ==== Sys2Proof/Machine/Bits.lean ====
section
/-! DEFINITION. The bit-field, extension and byte-order helpers of R11 and R103. -/

namespace Sys2Proof.Machine

/-- `zext_16(b)`: a zero-page address (R103). -/
def zext (b : Byte) : Word := b.setWidth 16

/-- `sext_16(b)`: a branch displacement (R103). -/
def sext (b : Byte) : Word := b.signExtend 16

/-- `(hi, lo)` concatenated, `hi` in bits 15:8 (R11, R51). -/
def pair (hi lo : Byte) : Word := hi ++ lo

/-- `w[15:8]`. -/
def hiByte (w : Word) : Byte := w.extractLsb' 8 8

/-- `w[7:0]`. -/
def loByte (w : Word) : Byte := w.extractLsb' 0 8

/-- `zext_9(b)`, an operand of the 9-bit sums of R140 and R143. -/
def zext9 (b : Byte) : BitVec 9 := b.setWidth 9

/-- A flag as a number of any width, set = 1 (R11). -/
def bit (w : Nat) (c : Bool) : BitVec w := (BitVec.ofBool c).setWidth w

end Sys2Proof.Machine
end

