-- ==== Sys2Proof/Machine/Memory.lean ====
section
/-! DEFINITION. The storage of one backing store: a list of (offset, byte) cells in one canonical form. -/

namespace Sys2Proof.Machine

/-- The bytes of a backing store that differ from `Memory.unlisted`, at strictly rising offsets. -/
abbrev Memory := List Host.Cell

/-- What an unlisted offset reads as. RAM and ROM storage is zero after construction (R44, R280); for PrivRAM,
whose content after reset the spec leaves open (`PRIVRAM_INIT`), 0 is a DESIGN CHOICE (log entry 2, unsafe). -/
def Memory.unlisted : Byte := 0

/-- The byte at an offset. -/
def Memory.read (m : Memory) (a : Nat) : Byte :=
  match m with
  | [] => Memory.unlisted
  | (k, v) :: rest => if a = k then v else Memory.read rest a

/-- The cells that hold `v` at `a` in front of `rest`: none when `v` is what an unlisted offset reads as. -/
def Memory.cell (a : Nat) (v : Byte) (rest : Memory) : Memory :=
  if v = Memory.unlisted then rest else (a, v) :: rest

/-- The store with `v` at `a` and every other offset unchanged, in canonical form again. -/
def Memory.write (m : Memory) (a : Nat) (v : Byte) : Memory :=
  match m with
  | [] => Memory.cell a v []
  | (k, u) :: rest =>
    if a < k then Memory.cell a v ((k, u) :: rest)
    else if a = k then Memory.cell a v rest
    else (k, u) :: Memory.write rest a v

/-- The cells of a byte string laid out from offset `a` upwards. -/
def Memory.image (a : Nat) (bytes : List Byte) : Memory :=
  match bytes with
  | [] => []
  | b :: rest => Memory.cell a b (Memory.image (a + 1) rest)

/-- The cells at offset `n` and above. -/
def Memory.above (m : Memory) (n : Nat) : Memory := m.filter fun c => n ≤ c.1

/-- `ROM[k] <- image[k]` for `k = 0 .. min(len(image), cap) - 1`, every other byte unchanged (R75). -/
def Memory.load (m : Memory) (bytes : List Byte) (cap : Nat) : Memory :=
  Memory.image 0 (bytes.take cap) ++ m.above (min bytes.length cap)

/-- Every offset is at least `n`, offsets rise strictly, and no cell holds the unlisted value. -/
def Memory.wfFrom (n : Nat) (m : Memory) : Bool :=
  match m with
  | [] => true
  | (k, v) :: rest => decide (n ≤ k) && decide (v ≠ Memory.unlisted) && Memory.wfFrom (k + 1) rest

/-- The canonical form: offsets strictly rising, no cell equal to what an unlisted offset reads as. -/
def Memory.wf (m : Memory) : Bool := Memory.wfFrom 0 m

end Sys2Proof.Machine
end

