-- ==== Sys2Proof/Config.lean ====
section
/-! DEFINITION. What an implementation of the emu6502 CORE fixes: backing stores, mapping entries, the
configuration record of a system, and the one parameter whose value is left without a body. -/

namespace Sys2Proof

/-- What a mapping entry routes to (R33). -/
inductive Store where
  | privRam
  | ram
  | rom
  | gpu
deriving DecidableEq, Repr

/-- The three peripheral actors on the bus (R8, R40). -/
inductive Peripheral where
  | ram
  | rom
  | gpu
deriving DecidableEq, Repr

/-- The direction of a bus message, kept symbolic (R40). -/
inductive Rw where
  | read
  | write
deriving DecidableEq, Repr

/-- A mapping entry `{virtStart, physStart, size, backingStore}` (R33). -/
structure Mapping where
  virtStart : Word
  physStart : PAddr
  size      : Word
  store     : Store
deriving DecidableEq, Repr

/-- The parameters of R7 that a system is constructed with; no step changes them (R34). A statement
about every state is a statement about every value of every one of these parameters. -/
structure SystemConfig where
  /-- `MAP`, the mapping table in its fixed order (R34, R38). -/
  map         : List Mapping
  /-- `PRIVRAM_SIZE` (R30). -/
  privRamSize : PAddr
  /-- `RAM_CAP` (R78). -/
  ramCap      : PAddr
  /-- `ROM_CAP` (R78). -/
  romCap      : PAddr
  /-- `GPU_CAP` (R78). -/
  gpuCap      : PAddr
  /-- `ROM_IMAGE`, the host's byte string (R75). -/
  romImage    : List Byte
  /-- `PHP_BIT5`, bit 5 of the byte PHP pushes (R26). -/
  phpBit5     : Bool
  /-- `ZP_PTR_WRAP` (R131). -/
  zpPtrWrap   : Bool
deriving DecidableEq, Repr

/-- FREE VALUE (log entry 3). `PHP_BIT5` is OPEN in the spec (R7, R26): one constant bit for the life of
the model, which nothing in Lean can evaluate. -/
opaque Config.phpBit5 : Bool

end Sys2Proof
end

