-- ==== Sys2Proof/Machine/Params.lean ====
section
/-! DEFINITION. The values the spec gives the parameters of R7, and the values this model names where the spec
leaves a parameter of reset open (log entries 1 and 4). -/

namespace Sys2Proof.Machine

/-- The default mapping table, in table order (R58). -/
def defaultMap : List Mapping :=
  [⟨0x0000, 0, 0x2000, .privRam⟩,
   ⟨0x2000, 0, 0x1FE0, .ram⟩,
   ⟨0x4000, 0, 0x0020, .gpu⟩,
   ⟨0x4020, 0, 0xBFE0, .rom⟩]

/-- The system `State.reset` is constructed with: the default table (R58), the capacities of R7, no ROM image
(DESIGN CHOICE, log entry 4), the free bit of PHP (log entry 3), and the spec's value of `ZP_PTR_WRAP`
(R131). -/
def defaultConfig : SystemConfig where
  map := defaultMap
  privRamSize := 0x2000
  ramCap := 0x1FE0
  romCap := 0xBFE0
  gpuCap := 0x20
  romImage := []
  phpBit5 := Config.phpBit5
  zpPtrWrap := false

/-- `RESET_A` of `State.reset` (DESIGN CHOICE, log entry 1). -/
def resetA : Byte := 0

/-- `RESET_X` of `State.reset` (DESIGN CHOICE, log entry 1). -/
def resetX : Byte := 0

/-- `RESET_Y` of `State.reset` (DESIGN CHOICE, log entry 1). -/
def resetY : Byte := 0

/-- `RESET_SP` of `State.reset` (DESIGN CHOICE, log entry 1). -/
def resetSP : Byte := 0

/-- Every one of the seven `RESET_FLAGS` of `State.reset` (DESIGN CHOICE, log entry 1). -/
def resetFlag : Bool := false

end Sys2Proof.Machine
end

