-- ==== Sys2Proof/Machine/State.lean ====
section
/-! DEFINITION. The state of the machine as plain data, the reasons a step can stop, and the state after reset. -/

namespace Sys2Proof.Machine

/-- The seven one-bit flags, each separate state (R24). -/
structure Flags where
  /-- `C`, carry. -/
  c : Bool
  /-- `Z`, zero. -/
  z : Bool
  /-- `I`, intDisable. -/
  i : Bool
  /-- `D`, decimal. -/
  d : Bool
  /-- `B`, brk. -/
  b : Bool
  /-- `V`, overflow. -/
  v : Bool
  /-- `N`, negative. -/
  n : Bool
deriving DecidableEq, Repr

/-- Why a mapping table is invalid (R57). -/
inductive ConfigError where
  /-- Entries `i < j` cover a common address (R56 invariant 1). -/
  | overlap (i j : Nat)
  /-- The table is empty or its first entry is not PrivRAM (R56 invariant 2). -/
  | missingPrivRam
  /-- Entry `i ≥ 1` is PrivRAM (R56 invariant 3). -/
  | duplicatePrivRam (i : Nat)
deriving DecidableEq, Repr

/-- What the host can ask the system to do at an instruction boundary (R39, R281, R290). -/
inductive HostCommand where
  /-- Construct the system from the configuration (R280). -/
  | construct
  /-- `reset()` of a peripheral (R282). -/
  | resetPeripheral (p : Peripheral)
  /-- `run()` of a peripheral (R281 step 3). -/
  | runPeripheral (p : Peripheral)
  /-- `reset()` of the CPU (R284). -/
  | resetCpu
  /-- `run()` of the CPU (R287). -/
  | runCpu
  /-- `halt()` of the CPU (R290). -/
  | halt
  /-- `halt()` of a peripheral: its channels are closed (R79). -/
  | haltPeripheral (p : Peripheral)
deriving DecidableEq, Repr

/-- The reasons the machine stops. None of them is a final state of a program (R10). -/
inductive Fault where
  /-- Raised by the instruction cycle on an opcode byte that is not one of the 151 (R108, R255). Safe: the spec names this fault. -/
  | illegalOpcode (op : Byte) (pc : Word)
  /-- Raised by the instruction cycle if the dispatch table bound an opcode to a mode its mnemonic lacks
  (R256); unreachable with the table of R104. Safe: the spec names this fault. -/
  | dispatchInconsistency (op : Byte)
  /-- Raised by a step of a system whose mapping table failed its invariants at construction (R57). Safe: the spec names this fault. -/
  | configInvalid (e : ConfigError)
  /-- Raised by a bus transaction with a peripheral that is not running its loop: the CORE waits for ever (R71). Safe: the spec names this stuck state. -/
  | waitingFor (p : Peripheral)
  /-- Raised by a bus message that the state of the bus does not allow: a transaction started while one is in
  progress, or a data message with none (R68); no instruction boundary is such a state (R36; DEDUCED,
  log entry 11). Safe: the machine stops. -/
  | busOutOfTurn
  /-- Raised by a step of a system the host has halted: no further access is made (R290, R292). Safe: the spec's outcome `Halted` of R10. -/
  | halted
  /-- Raised by a step of a system that has not been constructed: there is no CPU to run (R37). Safe: the machine stops. -/
  | notConstructed
deriving DecidableEq, Repr

/-- The reasons the model gives no meaning. -/
inductive Refusal where
  /-- Raised by no arm of this model: every instruction has its meaning. Safe. -/
  | notModelled (mnemonic : String)
  /-- Raised by an access to an offset past the capacity of a store, which only a configuration outside the
  spec can produce (R61, R78). Safe: the spec has a model refuse such a configuration. -/
  | outsideStore (st : Store)
  /-- Raised by construction with a window that does not fit its store, or a PrivRAM too small for the stack
  page (R78, R30). Safe: the spec has a model refuse such a configuration. -/
  | configOutsideStores
  /-- Raised by a host command that R37 and R281 do not allow in the present lifecycle state, and by `run()` of a
  peripheral that has been halted (DESIGN CHOICE, log entries 8 and 19). Safe: the spec gives such a command no effect. -/
  | hostOutOfOrder (cmd : HostCommand)
deriving DecidableEq, Repr

/-- The lifecycle of the CORE (R37). -/
inductive Life where
  | unconstructed
  | ready
  | running
  | halted
  | faulted (reason : Fault)
deriving DecidableEq, Repr

/-- Whether a peripheral runs its receive loop (R72): `idle` before `run()`, `closed` after `halt()` (R79). -/
inductive UnitLife where
  | idle
  | running
  | closed
deriving DecidableEq, Repr

/-- The three peripherals' loops. -/
structure Units where
  ram : UnitLife
  rom : UnitLife
  gpu : UnitLife
deriving DecidableEq, Repr

/-- The transaction in progress on the bus (R36): the peripheral addressed, the direction, the physical
address, and the byte to send (writes only). -/
inductive Bus where
  | idle
  | awaitData (p : Peripheral) (rw : Rw) (pa : PAddr) (v : Option Byte)
deriving DecidableEq, Repr

/-- An event of the CORE's output trace (R11): bus messages (R66, R67), diagnostics (R42), the BRK signal
(R41). The diagnostic of R256 is the fault `dispatchInconsistency` itself. -/
inductive Event where
  /-- The address message `(rw, address)` on `addr[p]`. -/
  | addr (p : Peripheral) (rw : Rw) (pa : PAddr)
  /-- The data message of a read, from `p` to the CORE. -/
  | dataToCpu (p : Peripheral) (d : Byte)
  /-- The data message of a write, from the CORE to `p`. -/
  | dataFromCpu (p : Peripheral) (d : Byte)
  /-- `UnmappedRead(vaddr)` (R252). -/
  | unmappedRead (v : Word)
  /-- `UnmappedWrite(vaddr, v)` (R253). -/
  | unmappedWrite (v : Word) (d : Byte)
  /-- `RomWrite(vaddr, v)` (R254). -/
  | romWrite (v : Word) (d : Byte)
  /-- `brk_signal` (R211). -/
  | brkSignal
deriving DecidableEq, Repr

/-- What the GPU logs for itself (R76, R77, R251); no part of the CORE's trace. -/
inductive GpuNote where
  | readAnswered0 (pa : PAddr)
  | writeIgnored (pa : PAddr) (d : Byte)
deriving DecidableEq, Repr

/-- The whole state of the system. -/
structure State where
  /-- `PC` (R22). -/
  pc      : Word
  /-- `SP`, an offset into the stack page (R21). -/
  sp      : Byte
  /-- `A` (R20). -/
  a       : Byte
  /-- `X` (R20). -/
  x       : Byte
  /-- `Y` (R20). -/
  y       : Byte
  /-- The flags (R24). -/
  flags   : Flags
  /-- PrivRAM by physical offset (R30). -/
  privRam : Memory
  /-- The RAM peripheral's storage (R73). -/
  ram     : Memory
  /-- The ROM peripheral's storage (R74, R75). -/
  rom     : Memory
  /-- The characters the GPU has emitted, in program order, oldest first (R77). -/
  gpuOut  : List Byte
  /-- What the GPU has logged, newest first (R76, R77). -/
  gpuLog  : List GpuNote
  /-- The CORE's output trace, newest event first (R11, R41, R42). -/
  trace   : List Event
  /-- The bus (R36). -/
  bus     : Bus
  /-- The lifecycle state of the CORE (R37). -/
  life    : Life
  /-- Which peripherals run (R72). -/
  units   : Units
  /-- What the system is constructed with; no step changes it (R34, R38). -/
  cfg     : SystemConfig
  /-- Host commands not yet carried out, first one first (R39, R292). They come from outside the machine: a step takes
  commands out and puts none in (DESIGN CHOICE, log entries 8 and 20). -/
  host    : List HostCommand
deriving DecidableEq, Repr

/-- The system before construction: the registers, flags and PrivRAM hold the values construction leaves as
they are (R44: unspecified; DESIGN CHOICE, log entries 1 and 2), and everything else is empty. -/
def State.powerOn : State where
  pc := 0
  sp := resetSP
  a := resetA
  x := resetX
  y := resetY
  flags := ⟨resetFlag, resetFlag, resetFlag, resetFlag, resetFlag, resetFlag, resetFlag⟩
  privRam := []
  ram := []
  rom := []
  gpuOut := []
  gpuLog := []
  trace := []
  bus := .idle
  life := .unconstructed
  units := ⟨.idle, .idle, .idle⟩
  cfg := defaultConfig
  host := []

/-- The state after construction, `reset()` and `run()` of every peripheral, and `reset()` of the CPU (R44, R281,
R286): `PC` is the word at the vector, here 0 because no ROM image is loaded (log entry 4), and the trace holds
the two read transactions of the vector (R284). That the bring-up sequence run on `State.powerOn` gives this
state is `reset_is_bringUp` of Sys2Proof/Laws/Lifecycle.lean. -/
def State.reset : State :=
  { State.powerOn with
    pc := 0x0000
    trace :=
      [.dataToCpu .rom 0, .addr .rom .read 0xBFDD,
       .dataToCpu .rom 0, .addr .rom .read 0xBFDC]
    life := .ready
    units := ⟨.running, .running, .running⟩ }

end Sys2Proof.Machine
end

