-- ==== Sys2Proof/Machine/Flags.lean ====
section
/-! DEFINITION. Every flag computation: `SetZN`, the adder and the subtractor, compare, the shifts, the logic
and the increments, the bit test, and the packed status byte. Each takes the flags before and gives the flags after. -/

namespace Sys2Proof.Machine

/-- `SetZN(v)` (R137). -/
def setZN (v : Byte) (f : Flags) : Flags := { f with z := decide (v = 0), n := v.getLsbD 7 }

/-- The 9-bit sum `x + y + cin` of R140 and R143. -/
def sum9 (x y : Byte) (cin : Bool) : BitVec 9 := zext9 x + zext9 y + bit 9 cin

/-- `c6` of R140: the carry into bit 7, the carry in included (conflict C1). -/
def carryIntoBit7 (x y : Byte) (cin : Bool) : Bool :=
  ((x &&& 0x7F) + (y &&& 0x7F) + bit 8 cin).getLsbD 7

/-- `AddWithCarry(x, y)`, the carry in being `C` (R140). `D` is not read (R142). -/
def addWithCarry (x y : Byte) (f : Flags) : Byte × Flags :=
  let s := sum9 x y f.c
  let r := s.setWidth 8
  (r, setZN r { f with c := s.getLsbD 8, v := carryIntoBit7 x y f.c ^^ s.getLsbD 8 })

/-- The 9-bit sum `x + ~y + cin` of R143. -/
def diff9 (x y : Byte) (cin : Bool) : BitVec 9 := sum9 x (~~~y) cin

/-- `ovf` of R143: the signed difference, the borrow included, is outside -128 .. 127 (D14). -/
def subOverflow (x y : Byte) (cin : Bool) : Bool :=
  let t : Int := x.toInt - y.toInt - (1 - cin.toNat)
  decide (t < -128) || decide (127 < t)

/-- The result, the carry out and the overflow of `SubtractWithCarry(x, y, cin)` (R143). -/
def subtractWithCarry (x y : Byte) (cin : Bool) : Byte × Bool × Bool :=
  let s := diff9 x y cin
  (s.setWidth 8, s.getLsbD 8, subOverflow x y cin)

/-- SBC's result and flags, the carry in being `C` (R144). `D` is not read (R142). -/
def subtractSetFlags (x y : Byte) (f : Flags) : Byte × Flags :=
  let (r, cout, ovf) := subtractWithCarry x y f.c
  (r, setZN r { f with c := cout, v := ovf })

/-- `Compare(x, y)`: the subtraction with carry in 1, `V` not written (R145, D15). -/
def compareSetFlags (x y : Byte) (f : Flags) : Flags :=
  let (r, cout, _) := subtractWithCarry x y true
  setZN r { f with c := cout }

/-- `asl(v)`: the result and the carry out (R150). -/
def aslBits (v : Byte) (_ : Bool) : Byte × Bool := (v <<< 1, v.getLsbD 7)

/-- `lsr(v)` (R150). -/
def lsrBits (v : Byte) (_ : Bool) : Byte × Bool := (v >>> 1, v.getLsbD 0)

/-- `rol(v, C)` (R150). -/
def rolBits (v : Byte) (c : Bool) : Byte × Bool := ((v <<< 1) ||| bit 8 c, v.getLsbD 7)

/-- `ror(v, C)` (R150). -/
def rorBits (v : Byte) (c : Bool) : Byte × Bool := ((v >>> 1) ||| (bit 8 c <<< 7), v.getLsbD 0)

/-- A shift of `v` as an instruction makes it: the old `C` goes in, then `C <- c'; SetZN(r)` (R150). -/
def shiftSetFlags (sh : Byte → Bool → Byte × Bool) (v : Byte) (f : Flags) : Byte × Flags :=
  let (r, c') := sh v f.c
  (r, setZN r { f with c := c' })

/-- A result that sets `Z` and `N` only: loads, transfers, logic, increments and decrements (R160 to R169, R180 to R190). -/
def resultSetFlags (r : Byte) (f : Flags) : Byte × Flags := (r, setZN r f)

/-- BIT: `Z` from `A & m`, `N` from `m[7]`, `V` from `m[6]` (R163). -/
def bitTestSetFlags (a m : Byte) (f : Flags) : Flags :=
  { f with z := decide (a &&& m = 0), n := m.getLsbD 7, v := m.getLsbD 6 }

/-- `Pack()` with `PHP_BIT5` (R26). -/
def packFlags (bit5 : Bool) (f : Flags) : Byte :=
  bit 8 f.c ||| (bit 8 f.z <<< 1) ||| (bit 8 f.i <<< 2) ||| (bit 8 f.d <<< 3) |||
    (bit 8 f.b <<< 4) ||| (bit 8 bit5 <<< 5) ||| (bit 8 f.v <<< 6) ||| (bit 8 f.n <<< 7)

/-- `Unpack(b)`: all seven flags, bit 5 ignored (R27). -/
def unpackFlags (b : Byte) : Flags where
  c := b.getLsbD 0
  z := b.getLsbD 1
  i := b.getLsbD 2
  d := b.getLsbD 3
  b := b.getLsbD 4
  v := b.getLsbD 6
  n := b.getLsbD 7

end Sys2Proof.Machine
end

