-- ==== Sys2Proof/Machine/Update.lean ====
section
/-! DEFINITION. One update of `State` per field. The configuration has none: no step changes it (R34). -/

namespace Sys2Proof.Machine

/-- The state with `pc` replaced. -/
def State.setPc (s : State) (v : Word) : State := { s with pc := v }

/-- The state with `sp` replaced. -/
def State.setSp (s : State) (v : Byte) : State := { s with sp := v }

/-- The state with `a` replaced. -/
def State.setA (s : State) (v : Byte) : State := { s with a := v }

/-- The state with `x` replaced. -/
def State.setX (s : State) (v : Byte) : State := { s with x := v }

/-- The state with `y` replaced. -/
def State.setY (s : State) (v : Byte) : State := { s with y := v }

/-- The state with `flags` replaced. -/
def State.setFlags (s : State) (v : Flags) : State := { s with flags := v }

/-- The state with `privRam` replaced. -/
def State.setPrivRam (s : State) (v : Memory) : State := { s with privRam := v }

/-- The state with `ram` replaced. -/
def State.setRam (s : State) (v : Memory) : State := { s with ram := v }

/-- The state with `rom` replaced. -/
def State.setRom (s : State) (v : Memory) : State := { s with rom := v }

/-- The state with `gpuOut` replaced. -/
def State.setGpuOut (s : State) (v : List Byte) : State := { s with gpuOut := v }

/-- The state with `gpuLog` replaced. -/
def State.setGpuLog (s : State) (v : List GpuNote) : State := { s with gpuLog := v }

/-- The state with `trace` replaced. -/
def State.setTrace (s : State) (v : List Event) : State := { s with trace := v }

/-- The state with `bus` replaced. -/
def State.setBus (s : State) (v : Bus) : State := { s with bus := v }

/-- The state with `life` replaced. -/
def State.setLife (s : State) (v : Life) : State := { s with life := v }

/-- The state with `units` replaced. -/
def State.setUnits (s : State) (v : Units) : State := { s with units := v }

/-- The state with `host` replaced. -/
def State.setHost (s : State) (v : List HostCommand) : State := { s with host := v }

/-- `emit E` (R11): the event is added to the output trace. -/
def State.emit (s : State) (e : Event) : State := s.setTrace (e :: s.trace)

/-- The character `v` is emitted on the output stream (R77). -/
def State.emitChar (s : State) (v : Byte) : State := s.setGpuOut (s.gpuOut ++ [v])

/-- The GPU adds a note to its log (R76, R77). -/
def State.noteGpu (s : State) (n : GpuNote) : State := s.setGpuLog (n :: s.gpuLog)

end Sys2Proof.Machine
end

