-- ==== Sys2Proof/Machine/Mmu.lean ====
section
/-! DEFINITION. The MMU: the invariants of the mapping table (R56, R57), the bounds of a configuration (R78), and
translation (R59). -/

namespace Sys2Proof.Machine

/-- The end of the integer range an entry covers, never wrapped (R33, R56). -/
def mappingEnd (e : Mapping) : Nat := e.virtStart.toNat + e.size.toNat

/-- `virtStart ≤ v < virtStart + size` (R33, R59). -/
def mappingCovers (e : Mapping) (v : Word) : Bool :=
  decide (e.virtStart.toNat ≤ v.toNat) && decide (v.toNat < mappingEnd e)

/-- Two entries' ranges share an address (R56 invariant 1); an entry of size 0 shares none. -/
def mappingsOverlap (e f : Mapping) : Bool :=
  decide (max e.virtStart.toNat f.virtStart.toNat < min (mappingEnd e) (mappingEnd f))

/-- The least index, counted from `j`, of an entry of the list that overlaps `e`. -/
def firstOverlapWith (e : Mapping) (j : Nat) : List Mapping → Option Nat
  | [] => none
  | f :: rest => if mappingsOverlap e f then some j else firstOverlapWith e (j + 1) rest

/-- The first pair of overlapping entries, indices counted from `i` (R56 invariant 1). -/
def firstOverlap (i : Nat) : List Mapping → Option (Nat × Nat)
  | [] => none
  | e :: rest =>
    match firstOverlapWith e (i + 1) rest with
    | some j => some (i, j)
    | none => firstOverlap (i + 1) rest

/-- The least index, counted from `i`, of a PrivRAM entry (R56 invariant 3). -/
def firstPrivRam (i : Nat) : List Mapping → Option Nat
  | [] => none
  | e :: rest => if e.store = .privRam then some i else firstPrivRam (i + 1) rest

/-- The first entry exists and is PrivRAM (R56 invariant 2). -/
def startsWithPrivRam : List Mapping → Bool
  | [] => false
  | e :: _ => decide (e.store = .privRam)

/-- What is wrong with a table, none if it is valid (R56, R57). Where several invariants fail, the reason is that
of the first in R56's order (DESIGN CHOICE, log entry 7). -/
def validateMap (t : List Mapping) : Option ConfigError :=
  match firstOverlap 0 t with
  | some (i, j) => some (.overlap i j)
  | none =>
    if startsWithPrivRam t then (firstPrivRam 1 t.tail).map .duplicatePrivRam
    else some .missingPrivRam

/-- The capacity of a store (R78). -/
def capacity (c : SystemConfig) (st : Store) : PAddr :=
  match st with
  | .privRam => c.privRamSize
  | .ram => c.ramCap
  | .rom => c.romCap
  | .gpu => c.gpuCap

/-- An entry's window lies inside its store (R78). -/
def mappingFits (c : SystemConfig) (e : Mapping) : Bool :=
  decide (e.physStart.toNat + e.size.toNat ≤ (capacity c e.store).toNat)

/-- Every window fits its store (R78) and PrivRAM holds the stack page (R7, R30). -/
def configFits (c : SystemConfig) : Bool :=
  c.map.all (mappingFits c) && decide (0x200 ≤ c.privRamSize.toNat)

/-- The first entry of a table that contains `v`: the scan of R59. -/
def scanMap (v : Word) : List Mapping → Option Mapping
  | [] => none
  | e :: rest => if mappingCovers e v then some e else scanMap v rest

/-- `translate(vaddr)`: the store and the physical address, none for a miss (R59). -/
def translate (c : SystemConfig) (v : Word) : Option (Store × PAddr) :=
  (scanMap v c.map).map fun e => (e.store, e.physStart + (v - e.virtStart).setWidth 32)

end Sys2Proof.Machine
end

