-- ==== Sys2Proof/Machine/Ops.lean ====
section
/-! DEFINITION. The named operations every instruction is built from: sequencing, the bus transaction in its four
transitions, the peripherals, PrivRAM, memory reads and writes through the MMU, the stack, the BRK signal and
the return from interrupt. -/

namespace Sys2Proof.Machine

/-- What an operation that gives a value ends in: the value and the state after it, or a stop. -/
abbrev Result (α : Type) := Host.Outcome (α × State) Fault Refusal

/-- What an instruction ends in. -/
abbrev Ending := Host.Outcome State Fault Refusal

/-- One operation after another: a stop of the first is the stop of both (R11, statement order). -/
def andThen {α β : Type} (r : Host.Outcome α Fault Refusal) (k : α → Host.Outcome β Fault Refusal) :
    Host.Outcome β Fault Refusal :=
  match r with
  | .next a => k a
  | .fault f => .fault f
  | .refused f => .refused f

/-! ## Peripherals -/

/-- The loop of a peripheral. -/
def unitLife (u : Units) (p : Peripheral) : UnitLife :=
  match p with
  | .ram => u.ram
  | .rom => u.rom
  | .gpu => u.gpu

/-- The loops with that of `p` in state `l`. -/
def setUnit (u : Units) (p : Peripheral) (l : UnitLife) : Units :=
  match p with
  | .ram => { u with ram := l }
  | .rom => { u with rom := l }
  | .gpu => { u with gpu := l }

/-- The store a peripheral owns (R12). -/
def storeOf (p : Peripheral) : Store :=
  match p with
  | .ram => .ram
  | .rom => .rom
  | .gpu => .gpu

/-- `off` lies inside the store (R61, R78). -/
def State.inStore (s : State) (st : Store) (pa : PAddr) : Bool :=
  decide (pa.toNat < (capacity s.cfg st).toNat)

/-- The byte a store holds at a physical offset; the GPU holds none and answers 0 (R73, R74, R76). -/
def State.byteAt (s : State) (st : Store) (off : Nat) : Byte :=
  match st with
  | .privRam => s.privRam.read off
  | .ram => s.ram.read off
  | .rom => s.rom.read off
  | .gpu => 0

/-- What a peripheral does when it answers a read: the GPU logs it (R76), the others do nothing. -/
def State.noteRead (s : State) (p : Peripheral) (pa : PAddr) : State :=
  match p with
  | .gpu => s.noteGpu (.readAnswered0 pa)
  | .ram | .rom => s

/-- What a peripheral does with a byte written to it: RAM stores it (R73), the GPU emits it at offset 0 and
ignores it elsewhere (R77). No write message ever reaches the ROM (R74); this model's ROM ignores one. -/
def State.peripheralTakes (s : State) (p : Peripheral) (pa : PAddr) (v : Byte) : State :=
  match p with
  | .ram => s.setRam (s.ram.write pa.toNat v)
  | .rom => s
  | .gpu => if pa = 0 then s.emitChar v else s.noteGpu (.writeIgnored pa v)

/-! ## The bus (R66 to R71) -/

/-- The rendezvous on `addr[p]`: the bus goes from idle to awaiting data (R70 rows 1 and 3). A peripheral that does
not run its loop never comes to it (R71; the fault is log entry 10). A message while a transaction is in progress is out of
turn (R68; the fault is log entry 11). -/
def busAddress (p : Peripheral) (rw : Rw) (pa : PAddr) (v : Option Byte) (s : State) : Ending :=
  if s.bus ≠ .idle then .fault .busOutOfTurn
  else if unitLife s.units p ≠ .running then .fault (.waitingFor p)
  else .next ((s.emit (.addr p rw pa)).setBus (.awaitData p rw pa v))

/-- The rendezvous on `data[p]` that ends the transaction in progress, and the byte it delivers to the CORE (0 for
a write, which delivers none): the bus is idle again (R70 rows 2 and 4). -/
def busData (s : State) : Result Byte :=
  match s.bus with
  | .awaitData p .read pa _ =>
    if s.inStore (storeOf p) pa then
      let d := s.byteAt (storeOf p) pa.toNat
      .next (d, ((s.noteRead p pa).emit (.dataToCpu p d)).setBus .idle)
    else .refused (.outsideStore (storeOf p))
  | .awaitData p .write pa (some v) =>
    if s.inStore (storeOf p) pa then
      .next (0, ((s.emit (.dataFromCpu p v)).peripheralTakes p pa v).setBus .idle)
    else .refused (.outsideStore (storeOf p))
  | .awaitData _ .write _ none => .fault .busOutOfTurn
  | .idle => .fault .busOutOfTurn

/-- `BusRead(p, pa)` (R66). -/
def busRead (p : Peripheral) (pa : PAddr) (s : State) : Result Byte :=
  andThen (busAddress p .read pa none s) busData

/-- `BusWrite(p, pa, v)` (R67). -/
def busWrite (p : Peripheral) (pa : PAddr) (v : Byte) (s : State) : Ending :=
  andThen (busAddress p .write pa (some v) s) fun s1 =>
  andThen (busData s1) fun r => .next r.2

/-! ## PrivRAM (R61) -/

/-- `PrivRead(off)`. -/
def privRead (pa : PAddr) (s : State) : Result Byte :=
  if s.inStore .privRam pa then .next (s.privRam.read pa.toNat, s)
  else .refused (.outsideStore .privRam)

/-- `PrivWrite(off, v)`. -/
def privWrite (pa : PAddr) (v : Byte) (s : State) : Ending :=
  if s.inStore .privRam pa then .next (s.setPrivRam (s.privRam.write pa.toNat v))
  else .refused (.outsideStore .privRam)

/-! ## Memory through the MMU (R60, R62 to R64) -/

/-- `MemRead(addr, 1)` (R62). -/
def memRead (v : Word) (s : State) : Result Byte :=
  match translate s.cfg v with
  | some (.privRam, pa) => privRead pa s
  | some (.ram, pa) => busRead .ram pa s
  | some (.rom, pa) => busRead .rom pa s
  | some (.gpu, pa) => busRead .gpu pa s
  | none => .next (0, s.emit (.unmappedRead v))

/-- `MemWrite(addr, 1, v)` (R63). -/
def memWrite (v : Word) (b : Byte) (s : State) : Ending :=
  match translate s.cfg v with
  | some (.privRam, pa) => privWrite pa b s
  | some (.ram, pa) => busWrite .ram pa b s
  | some (.gpu, pa) => busWrite .gpu pa b s
  | some (.rom, _) => .next (s.emit (.romWrite v b))
  | none => .next (s.emit (.unmappedWrite v b))

/-- `MemRead(addr, 2)`: low byte at `addr`, then high byte at `addr + 1` modulo 2^16 (R64). -/
def memReadWord (v : Word) (s : State) : Result Word :=
  andThen (memRead v s) fun lo =>
  andThen (memRead (v + 1) lo.2) fun hi => .next (pair hi.1 lo.1, hi.2)

/-- `MemWrite(addr, 2, v)` (R65); no instruction uses it. -/
def memWriteWord (v : Word) (w : Word) (s : State) : Ending :=
  andThen (memWrite v (loByte w) s) fun s1 => memWrite (v + 1) (hiByte w) s1

/-! ## The state as a reader sees it: the values and the effects of accesses that complete -/

/-- The value `MemRead(v, 1)` gives when it completes (R62). -/
def State.peek (s : State) (v : Word) : Byte :=
  match translate s.cfg v with
  | some (st, pa) => s.byteAt st pa.toNat
  | none => 0

/-- The value `MemRead(v, 2)` gives when it completes (R64). -/
def State.peekWord (s : State) (v : Word) : Word := pair (s.peek (v + 1)) (s.peek v)

/-- The events of a completed `MemRead(v, 1)` that gave `d`, newest first (R62, R66). -/
def readEvents (c : SystemConfig) (v : Word) (d : Byte) : List Event :=
  match translate c v with
  | some (.privRam, _) => []
  | some (.ram, pa) => [.dataToCpu .ram d, .addr .ram .read pa]
  | some (.rom, pa) => [.dataToCpu .rom d, .addr .rom .read pa]
  | some (.gpu, pa) => [.dataToCpu .gpu d, .addr .gpu .read pa]
  | none => [.unmappedRead v]

/-- The events of completed reads of a list of addresses in order, newest first. -/
def readsEvents (s : State) (l : List Word) : List Event :=
  match l with
  | [] => []
  | v :: rest => readsEvents s rest ++ readEvents s.cfg v (s.peek v)

/-- The events of a completed `MemWrite(v, 1, d)`, newest first (R63, R67). -/
def writeEvents (c : SystemConfig) (v : Word) (d : Byte) : List Event :=
  match translate c v with
  | some (.privRam, _) => []
  | some (.ram, pa) => [.dataFromCpu .ram d, .addr .ram .write pa]
  | some (.gpu, pa) => [.dataFromCpu .gpu d, .addr .gpu .write pa]
  | some (.rom, _) => [.romWrite v d]
  | none => [.unmappedWrite v d]

/-- The cell a byte write to `v` changes, none where it changes no storage (R60, R77). -/
def writtenCell (c : SystemConfig) (v : Word) : Option (Store × Nat) :=
  match translate c v with
  | some (.privRam, pa) => some (.privRam, pa.toNat)
  | some (.ram, pa) => some (.ram, pa.toNat)
  | some (.gpu, _) | some (.rom, _) | none => none

/-- The characters a byte write of `d` to `v` emits (R77). -/
def emittedChars (c : SystemConfig) (v : Word) (d : Byte) : List Byte :=
  match translate c v with
  | some (.gpu, pa) => if pa = 0 then [d] else []
  | _ => []

/-! ## The stack (R200 to R203) -/

/-- `0x100 + SP` as a physical offset of PrivRAM (R21). -/
def stackOffset (sp : Byte) : PAddr := 0x100 + sp.setWidth 32

/-- `StackPush(v)`: the byte goes to `0x100 + SP` of PrivRAM, then `SP` goes down by one, modulo 256 (R200). -/
def stackPush (v : Byte) (s : State) : Ending :=
  andThen (privWrite (stackOffset s.sp) v s) fun s1 => .next (s1.setSp (s1.sp - 1))

/-- `StackPull()`: `SP` goes up by one, modulo 256, then the byte at `0x100 + SP` is read (R201). -/
def stackPull (s : State) : Result Byte :=
  let s1 := s.setSp (s.sp + 1)
  privRead (stackOffset s1.sp) s1

/-- `PushWord(w)`: high byte first (R202). -/
def pushWord (w : Word) (s : State) : Ending :=
  andThen (stackPush (hiByte w) s) fun s1 => stackPush (loByte w) s1

/-- `PullWord()`: low byte first (R203). -/
def pullWord (s : State) : Result Word :=
  andThen (stackPull s) fun lo =>
  andThen (stackPull lo.2) fun hi => .next (pair hi.1 lo.1, hi.2)

/-! ## Advancing the program counter, BRK and the return from interrupt -/

/-- `PC <- PC + n`, modulo 2^16 (R122, R23). -/
def State.advance (s : State) (n : Nat) : State := s.setPc (s.pc + BitVec.ofNat 16 n)

/-- The nearest thing this hardware has to taking an exception (R250, R259): `B <- 1` and the BRK signal. No `PC`, no
status byte and no vector is involved, and `I` keeps its value (R211). The signal never blocks the CPU (log entry 14), and
no answer of the host to it is produced here (R213; DESIGN CHOICE, log entry 20). -/
def raiseBreak (s : State) : State := (s.setFlags { s.flags with b := true }).emit .brkSignal

/-- The return from interrupt: the status byte, then `PC` low byte first, with nothing added (R210). -/
def returnFromInterrupt (s : State) : Ending :=
  andThen (stackPull s) fun p =>
  andThen (pullWord (p.2.setFlags (unpackFlags p.1))) fun w => .next (w.2.setPc w.1)

end Sys2Proof.Machine
end

