-- ==== Sys2Proof/Machine/Operands.lean ====
section
/-! DEFINITION. Every operand form: the effective address of each memory mode (R124 to R132), the operand access classes
(R135, R136), the branch target (R134), and the shapes the instruction families share. -/

namespace Sys2Proof.Machine

/-- `ZpNext(zp)`: where the high byte of a zero-page pointer is (R131). -/
def zpNext (wrap : Bool) (zp : Byte) : Word := if wrap then zext (zp + 1) else zext zp + 1

/-- The pointer stored at zero-page address `zp`, low byte read first (R131, R132). -/
def zpPointer (zp : Byte) (s : State) : Result Word :=
  andThen (memRead (zext zp) s) fun lo =>
  andThen (memRead (zpNext lo.2.cfg.zpPtrWrap zp) lo.2) fun hi => .next (pair hi.1 lo.1, hi.2)

/-- The effective address of a memory operand (R124 to R132), its pointer bytes read through the MMU. -/
def effectiveAddress (a : AddrForm) (s : State) : Result Word :=
  match a with
  | .zeroPage b1 => .next (zext b1, s)
  | .zeroPageX b1 => .next (zext (b1 + s.x), s)
  | .zeroPageY b1 => .next (zext (b1 + s.y), s)
  | .absolute w => .next (w, s)
  | .absoluteX w => .next (w + zext s.x, s)
  | .absoluteY w => .next (w + zext s.y, s)
  | .indirect w => memReadWord w s
  | .indirectX b1 => zpPointer (b1 + s.x) s
  | .indirectY b1 => andThen (zpPointer b1 s) fun p => .next (p.1 + zext p.2.y, p.2)

/-- `LoadOperand(mode)` (R135). -/
def loadOperand (src : Source) (s : State) : Result Byte :=
  match src with
  | .immediate m => .next (m, s)
  | .memory a => andThen (effectiveAddress a s) fun ea => memRead ea.1 ea.2

/-- `StoreOperand(mode, v)` (R136). -/
def storeOperand (a : AddrForm) (v : Byte) (s : State) : Ending :=
  andThen (effectiveAddress a s) fun ea => memWrite ea.1 v ea.2

/-- `ModifyOperand(mode, f)` (R136), `f` giving the result and the flags after: one read, then one write of the
same address, and the flags are set whether or not the write is dropped. -/
def modifyOperand (t : Target) (f : Byte → Flags → Byte × Flags) (s : State) : Ending :=
  match t with
  | .accumulator =>
    let r := f s.a s.flags
    .next ((s.setA r.1).setFlags r.2)
  | .memory a =>
    andThen (effectiveAddress a s) fun ea =>
    andThen (memRead ea.1 ea.2) fun v =>
    let r := f v.1 v.2.flags
    andThen (memWrite ea.1 r.1 v.2) fun s1 => .next (s1.setFlags r.2)

/-! ## The operand as a reader of the state sees it -/

/-- The pointer a completed read of the zero-page pointer at `zp` gives. -/
def State.zpWord (s : State) (zp : Byte) : Word := pair (s.peek (zpNext s.cfg.zpPtrWrap zp)) (s.peek (zext zp))

/-- The effective address of each memory mode, as R124 to R132 compute it from the state. -/
def State.address (s : State) (a : AddrForm) : Word :=
  match a with
  | .zeroPage b1 => zext b1
  | .zeroPageX b1 => zext (b1 + s.x)
  | .zeroPageY b1 => zext (b1 + s.y)
  | .absolute w => w
  | .absoluteX w => w + zext s.x
  | .absoluteY w => w + zext s.y
  | .indirect w => s.peekWord w
  | .indirectX b1 => s.zpWord (b1 + s.x)
  | .indirectY b1 => s.zpWord b1 + zext s.y

/-- The addresses of the pointer bytes a mode reads, in the order of R138. -/
def State.pointerReads (s : State) (a : AddrForm) : List Word :=
  match a with
  | .indirect w => [w, w + 1]
  | .indirectX b1 => [zext (b1 + s.x), zpNext s.cfg.zpPtrWrap (b1 + s.x)]
  | .indirectY b1 => [zext b1, zpNext s.cfg.zpPtrWrap b1]
  | .zeroPage _ | .zeroPageX _ | .zeroPageY _ | .absolute _ | .absoluteX _ | .absoluteY _ => []

/-- The addresses `LoadOperand` reads, in the order of R138: the pointer bytes, then the data byte. -/
def State.sourceReads (s : State) (src : Source) : List Word :=
  match src with
  | .immediate _ => []
  | .memory a => s.pointerReads a ++ [s.address a]

/-- The byte `LoadOperand` gives when it completes (R135). -/
def State.operandValue (s : State) (src : Source) : Byte :=
  match src with
  | .immediate m => m
  | .memory a => s.peek (s.address a)

/-- The byte `ModifyOperand` starts from (R136). -/
def State.targetValue (s : State) (t : Target) : Byte :=
  match t with
  | .accumulator => s.a
  | .memory a => s.peek (s.address a)

/-! ## The shapes of the instruction families -/

/-- `m <- LoadOperand(mode)`, an effect of `m`, `PC <- PC + len(mode)`. -/
def loadThen (src : Source) (k : Byte → State → State) (s : State) : Ending :=
  andThen (loadOperand src s) fun m => .next ((k m.1 m.2).advance src.operand.length)

/-- `StoreOperand(mode, v)`, `PC <- PC + len(mode)`. -/
def storeThen (a : AddrForm) (v : Byte) (s : State) : Ending :=
  andThen (storeOperand a v s) fun s1 => .next (s1.advance (Operand.memory a).length)

/-- `ModifyOperand(mode, f)` with its flags, `PC <- PC + len(mode)`. -/
def modifyThen (t : Target) (f : Byte → Flags → Byte × Flags) (s : State) : Ending :=
  andThen (modifyOperand t f s) fun s1 => .next (s1.advance t.operand.length)

/-- An Implied instruction that touches no memory: an effect, `PC <- PC + 1`. -/
def impliedThen (k : State → State) (s : State) : Ending := .next ((k s).advance 1)

/-- `A` and the flags from a result (R137). -/
def State.putA (s : State) (r : Byte × Flags) : State := (s.setA r.1).setFlags r.2

/-- `X` and the flags from a result (R137). -/
def State.putX (s : State) (r : Byte × Flags) : State := (s.setX r.1).setFlags r.2

/-- `Y` and the flags from a result (R137). -/
def State.putY (s : State) (r : Byte × Flags) : State := (s.setY r.1).setFlags r.2

/-- `target <- PC + 2 + sext_16(b1)`, modulo 2^16 (R134). -/
def branchTarget (pc : Word) (d : Byte) : Word := pc + 2 + sext d

/-- A conditional branch (R220); its displacement byte was fetched with the instruction. -/
def branchIf (cond : Bool) (d : Byte) (s : State) : Ending :=
  .next (s.setPc (if cond then branchTarget s.pc d else s.pc + 2))

end Sys2Proof.Machine
end

