-- ==== Sys2Proof/Machine/Cycle.lean ====
section
/-! DEFINITION. The instruction cycle up to the dispatch: whether the CPU runs, the fetch of the opcode and of the
operand bytes, and the decoding (R120, R121). -/

namespace Sys2Proof.Machine

/-- The operand bytes of a mode: `b1` at `PC + 1`, then `b2` at `PC + 2`, modulo 2^16 (R121). -/
def fetchOperandBytes (md : Mode) (s : State) : Result (List Byte) :=
  match md.length with
  | 2 => andThen (memRead (s.pc + 1) s) fun b1 => .next ([b1.1], b1.2)
  | 3 =>
    andThen (memRead (s.pc + 1) s) fun b1 =>
    andThen (memRead (b1.2.pc + 2) b1.2) fun b2 => .next ([b1.1, b2.1], b2.2)
  | _ => .next ([], s)

/-- The instruction at `PC` and the state after its bytes are fetched (R120). An illegal opcode stops the cycle after the
opcode fetch (R108, R255); the other two errors of `decode` are the dispatch inconsistency of R256, which the table
of R104 makes unreachable. -/
def fetch (s : State) : Result Instr :=
  andThen (memRead s.pc s) fun op =>
  match dispatch op.1 with
  | none => .fault (.illegalOpcode op.1 s.pc)
  | some (_, md) =>
    andThen (fetchOperandBytes md op.2) fun bs =>
    match decode (op.1 :: bs.1) with
    | .ok (i, _) => .next (i, bs.2)
    | .error _ => .fault (.dispatchInconsistency op.1)

/-- Whether the CPU can take a step, and the state it takes it in. In `ready` the host's `run()` begins: `life <- Running`,
and the fetch-execute loop starts (R287); in `running` it goes on. A halted, faulted or unconstructed system takes no
step (R290, R57, R37). -/
def beginStep (s : State) : Ending :=
  match s.life with
  | .ready | .running => .next (s.setLife .running)
  | .halted => .fault .halted
  | .faulted reason => .fault reason
  | .unconstructed => .fault .notConstructed

/-- One instruction cycle: the CPU runs, the instruction at `PC` is fetched and decoded, and `run` gives its effect. -/
def cycle (run : Instr → State → Ending) (s : State) : Ending :=
  andThen (beginStep s) fun s0 =>
  andThen (fetch s0) fun r => run r.1 r.2

/-- The byte `b` put into the storage behind virtual address `v`, without a bus transaction and without an event; no
change where nothing is stored behind `v`. This is how the host places code, not an access of the CPU. -/
def State.placeByte (s : State) (v : Word) (b : Byte) : State :=
  match translate s.cfg v with
  | some (.privRam, pa) => s.setPrivRam (s.privRam.write pa.toNat b)
  | some (.ram, pa) => s.setRam (s.ram.write pa.toNat b)
  | some (.rom, pa) => s.setRom (s.rom.write pa.toNat b)
  | some (.gpu, _) => s
  | none => s

/-- The bytes of a list placed at `v`, `v + 1`, ... -/
def State.placeBytes (s : State) (v : Word) (bytes : List Byte) : State :=
  match bytes with
  | [] => s
  | b :: rest => (s.placeByte v b).placeBytes (v + 1) rest

/-- The state with the bytes of a table word at `PC`, no host command waiting, and the CPU running, so that the very
next step fetches them (log entry 5). -/
def State.placeTableWord (s : State) (nbits w : Nat) : State :=
  ((s.placeBytes s.pc (tableBytes nbits w)).setHost []).setLife .running

end Sys2Proof.Machine
end

