-- ==== Sys2Proof/Machine/Arithmetic.lean ====
section
/-! DEFINITION. ADC, SBC, CMP, CPX, CPY (R140 to R149). -/

namespace Sys2Proof.Machine

/-- `A <- AddWithCarry(A, m)` (R141). -/
def adcOp (src : Source) (s : State) : Ending :=
  loadThen src (fun m t => t.putA (addWithCarry t.a m t.flags)) s

/-- ADC IndirectX, opcode 61 (R141, R131). -/
def execAdcIzx (b1 : Byte) (s : State) : Ending := adcOp (.memory (.indirectX b1)) s

/-- ADC ZeroPage, opcode 65 (R141, R124). -/
def execAdcZp (b1 : Byte) (s : State) : Ending := adcOp (.memory (.zeroPage b1)) s

/-- ADC Immediate, opcode 69 (R141, R123). -/
def execAdcImm (m : Byte) (s : State) : Ending := adcOp (.immediate m) s

/-- ADC Absolute, opcode 6D (R141, R127). -/
def execAdcAbs (w : Word) (s : State) : Ending := adcOp (.memory (.absolute w)) s

/-- ADC IndirectY, opcode 71 (R141, R132). -/
def execAdcIzy (b1 : Byte) (s : State) : Ending := adcOp (.memory (.indirectY b1)) s

/-- ADC ZeroPageX, opcode 75 (R141, R125). -/
def execAdcZpx (b1 : Byte) (s : State) : Ending := adcOp (.memory (.zeroPageX b1)) s

/-- ADC AbsoluteY, opcode 79 (R141, R129). -/
def execAdcAby (w : Word) (s : State) : Ending := adcOp (.memory (.absoluteY w)) s

/-- ADC AbsoluteX, opcode 7D (R141, R128). -/
def execAdcAbx (w : Word) (s : State) : Ending := adcOp (.memory (.absoluteX w)) s

/-- `A <- A - m - (1 - C)` with its flags (R144). -/
def sbcOp (src : Source) (s : State) : Ending :=
  loadThen src (fun m t => t.putA (subtractSetFlags t.a m t.flags)) s

/-- SBC IndirectX, opcode E1 (R144, R131). -/
def execSbcIzx (b1 : Byte) (s : State) : Ending := sbcOp (.memory (.indirectX b1)) s

/-- SBC ZeroPage, opcode E5 (R144, R124). -/
def execSbcZp (b1 : Byte) (s : State) : Ending := sbcOp (.memory (.zeroPage b1)) s

/-- SBC Immediate, opcode E9 (R144, R123). -/
def execSbcImm (m : Byte) (s : State) : Ending := sbcOp (.immediate m) s

/-- SBC Absolute, opcode ED (R144, R127). -/
def execSbcAbs (w : Word) (s : State) : Ending := sbcOp (.memory (.absolute w)) s

/-- SBC IndirectY, opcode F1 (R144, R132). -/
def execSbcIzy (b1 : Byte) (s : State) : Ending := sbcOp (.memory (.indirectY b1)) s

/-- SBC ZeroPageX, opcode F5 (R144, R125). -/
def execSbcZpx (b1 : Byte) (s : State) : Ending := sbcOp (.memory (.zeroPageX b1)) s

/-- SBC AbsoluteY, opcode F9 (R144, R129). -/
def execSbcAby (w : Word) (s : State) : Ending := sbcOp (.memory (.absoluteY w)) s

/-- SBC AbsoluteX, opcode FD (R144, R128). -/
def execSbcAbx (w : Word) (s : State) : Ending := sbcOp (.memory (.absoluteX w)) s

/-- `Compare(A, m)` (R146). -/
def cmpOp (src : Source) (s : State) : Ending :=
  loadThen src (fun m t => t.setFlags (compareSetFlags t.a m t.flags)) s

/-- CMP IndirectX, opcode C1 (R146, R131). -/
def execCmpIzx (b1 : Byte) (s : State) : Ending := cmpOp (.memory (.indirectX b1)) s

/-- CMP ZeroPage, opcode C5 (R146, R124). -/
def execCmpZp (b1 : Byte) (s : State) : Ending := cmpOp (.memory (.zeroPage b1)) s

/-- CMP Immediate, opcode C9 (R146, R123). -/
def execCmpImm (m : Byte) (s : State) : Ending := cmpOp (.immediate m) s

/-- CMP Absolute, opcode CD (R146, R127). -/
def execCmpAbs (w : Word) (s : State) : Ending := cmpOp (.memory (.absolute w)) s

/-- CMP IndirectY, opcode D1 (R146, R132). -/
def execCmpIzy (b1 : Byte) (s : State) : Ending := cmpOp (.memory (.indirectY b1)) s

/-- CMP ZeroPageX, opcode D5 (R146, R125). -/
def execCmpZpx (b1 : Byte) (s : State) : Ending := cmpOp (.memory (.zeroPageX b1)) s

/-- CMP AbsoluteY, opcode D9 (R146, R129). -/
def execCmpAby (w : Word) (s : State) : Ending := cmpOp (.memory (.absoluteY w)) s

/-- CMP AbsoluteX, opcode DD (R146, R128). -/
def execCmpAbx (w : Word) (s : State) : Ending := cmpOp (.memory (.absoluteX w)) s

/-- `Compare(X, m)` (R147). -/
def cpxOp (src : Source) (s : State) : Ending :=
  loadThen src (fun m t => t.setFlags (compareSetFlags t.x m t.flags)) s

/-- CPX Immediate, opcode E0 (R147, R123). -/
def execCpxImm (m : Byte) (s : State) : Ending := cpxOp (.immediate m) s

/-- CPX ZeroPage, opcode E4 (R147, R124). -/
def execCpxZp (b1 : Byte) (s : State) : Ending := cpxOp (.memory (.zeroPage b1)) s

/-- CPX Absolute, opcode EC (R147, R127). -/
def execCpxAbs (w : Word) (s : State) : Ending := cpxOp (.memory (.absolute w)) s

/-- `Compare(Y, m)` (R148). -/
def cpyOp (src : Source) (s : State) : Ending :=
  loadThen src (fun m t => t.setFlags (compareSetFlags t.y m t.flags)) s

/-- CPY Immediate, opcode C0 (R148, R123). -/
def execCpyImm (m : Byte) (s : State) : Ending := cpyOp (.immediate m) s

/-- CPY ZeroPage, opcode C4 (R148, R124). -/
def execCpyZp (b1 : Byte) (s : State) : Ending := cpyOp (.memory (.zeroPage b1)) s

/-- CPY Absolute, opcode CC (R148, R127). -/
def execCpyAbs (w : Word) (s : State) : Ending := cpyOp (.memory (.absolute w)) s

end Sys2Proof.Machine
end

