-- ==== Sys2Proof/Machine/Branch.lean ====
section
/-! DEFINITION. BCC, BCS, BEQ, BNE, BMI, BPL, BVC, BVS, JMP (R220 to R229). -/

namespace Sys2Proof.Machine

/-- BCC, opcode 90 (R221). -/
def execBcc (d : Byte) (s : State) : Ending := branchIf (!s.flags.c) d s

/-- BCS, opcode B0 (R222). -/
def execBcs (d : Byte) (s : State) : Ending := branchIf s.flags.c d s

/-- BEQ, opcode F0 (R223). -/
def execBeq (d : Byte) (s : State) : Ending := branchIf s.flags.z d s

/-- BNE, opcode D0 (R224). -/
def execBne (d : Byte) (s : State) : Ending := branchIf (!s.flags.z) d s

/-- BMI, opcode 30 (R225). -/
def execBmi (d : Byte) (s : State) : Ending := branchIf s.flags.n d s

/-- BPL, opcode 10 (R226). -/
def execBpl (d : Byte) (s : State) : Ending := branchIf (!s.flags.n) d s

/-- BVC, opcode 50 (R227). -/
def execBvc (d : Byte) (s : State) : Ending := branchIf (!s.flags.v) d s

/-- BVS, opcode 70 (R228). -/
def execBvs (d : Byte) (s : State) : Ending := branchIf s.flags.v d s

/-- JMP Absolute, opcode 4C (R229): `PC <- w`. -/
def execJmpAbs (w : Word) (s : State) : Ending := .next (s.setPc w)

/-- JMP Indirect, opcode 6C (R229, R130): `PC <- MemRead(w, 2)`. -/
def execJmpInd (w : Word) (s : State) : Ending :=
  andThen (effectiveAddress (.indirect w) s) fun ea => .next (ea.2.setPc ea.1)

end Sys2Proof.Machine
end

