-- ==== Sys2Proof/Machine/FlagOps.lean ====
section
/-! DEFINITION. CLC, SEC, CLI, SEI, CLD, SED, CLV, NOP (R240 to R247). -/

namespace Sys2Proof.Machine

/-- CLC, opcode 18 (R240). -/
def execClc (s : State) : Ending := impliedThen (fun t => t.setFlags { t.flags with c := false }) s

/-- SEC, opcode 38 (R241). -/
def execSec (s : State) : Ending := impliedThen (fun t => t.setFlags { t.flags with c := true }) s

/-- CLI, opcode 58 (R242). -/
def execCli (s : State) : Ending := impliedThen (fun t => t.setFlags { t.flags with i := false }) s

/-- SEI, opcode 78 (R243). -/
def execSei (s : State) : Ending := impliedThen (fun t => t.setFlags { t.flags with i := true }) s

/-- CLD, opcode D8 (R244). -/
def execCld (s : State) : Ending := impliedThen (fun t => t.setFlags { t.flags with d := false }) s

/-- SED, opcode F8 (R245). -/
def execSed (s : State) : Ending := impliedThen (fun t => t.setFlags { t.flags with d := true }) s

/-- CLV, opcode B8 (R246). -/
def execClv (s : State) : Ending := impliedThen (fun t => t.setFlags { t.flags with v := false }) s

/-- NOP, opcode EA (R247). -/
def execNop (s : State) : Ending := impliedThen (fun t => t) s

end Sys2Proof.Machine
end

