-- ==== Sys2Proof/Machine/LoadStore.lean ====
section
/-! DEFINITION. LDA, LDX, LDY, STA, STX, STY, TAX, TAY, TXA, TYA, TSX, TXS (R180 to R191). -/

namespace Sys2Proof.Machine

/-- `A <- m; SetZN(A)` (R180). -/
def ldaOp (src : Source) (s : State) : Ending :=
  loadThen src (fun m t => t.putA (resultSetFlags m t.flags)) s

/-- LDA IndirectX, opcode A1 (R180, R131). -/
def execLdaIzx (b1 : Byte) (s : State) : Ending := ldaOp (.memory (.indirectX b1)) s

/-- LDA ZeroPage, opcode A5 (R180, R124). -/
def execLdaZp (b1 : Byte) (s : State) : Ending := ldaOp (.memory (.zeroPage b1)) s

/-- LDA Immediate, opcode A9 (R180, R123). -/
def execLdaImm (m : Byte) (s : State) : Ending := ldaOp (.immediate m) s

/-- LDA Absolute, opcode AD (R180, R127). -/
def execLdaAbs (w : Word) (s : State) : Ending := ldaOp (.memory (.absolute w)) s

/-- LDA IndirectY, opcode B1 (R180, R132). -/
def execLdaIzy (b1 : Byte) (s : State) : Ending := ldaOp (.memory (.indirectY b1)) s

/-- LDA ZeroPageX, opcode B5 (R180, R125). -/
def execLdaZpx (b1 : Byte) (s : State) : Ending := ldaOp (.memory (.zeroPageX b1)) s

/-- LDA AbsoluteY, opcode B9 (R180, R129). -/
def execLdaAby (w : Word) (s : State) : Ending := ldaOp (.memory (.absoluteY w)) s

/-- LDA AbsoluteX, opcode BD (R180, R128). -/
def execLdaAbx (w : Word) (s : State) : Ending := ldaOp (.memory (.absoluteX w)) s

/-- `X <- m; SetZN(X)` (R181). -/
def ldxOp (src : Source) (s : State) : Ending :=
  loadThen src (fun m t => t.putX (resultSetFlags m t.flags)) s

/-- LDX Immediate, opcode A2 (R181, R123). -/
def execLdxImm (m : Byte) (s : State) : Ending := ldxOp (.immediate m) s

/-- LDX ZeroPage, opcode A6 (R181, R124). -/
def execLdxZp (b1 : Byte) (s : State) : Ending := ldxOp (.memory (.zeroPage b1)) s

/-- LDX Absolute, opcode AE (R181, R127). -/
def execLdxAbs (w : Word) (s : State) : Ending := ldxOp (.memory (.absolute w)) s

/-- LDX ZeroPageY, opcode B6 (R181, R126). -/
def execLdxZpy (b1 : Byte) (s : State) : Ending := ldxOp (.memory (.zeroPageY b1)) s

/-- LDX AbsoluteY, opcode BE (R181, R129). -/
def execLdxAby (w : Word) (s : State) : Ending := ldxOp (.memory (.absoluteY w)) s

/-- `Y <- m; SetZN(Y)` (R182). -/
def ldyOp (src : Source) (s : State) : Ending :=
  loadThen src (fun m t => t.putY (resultSetFlags m t.flags)) s

/-- LDY Immediate, opcode A0 (R182, R123). -/
def execLdyImm (m : Byte) (s : State) : Ending := ldyOp (.immediate m) s

/-- LDY ZeroPage, opcode A4 (R182, R124). -/
def execLdyZp (b1 : Byte) (s : State) : Ending := ldyOp (.memory (.zeroPage b1)) s

/-- LDY Absolute, opcode AC (R182, R127). -/
def execLdyAbs (w : Word) (s : State) : Ending := ldyOp (.memory (.absolute w)) s

/-- LDY ZeroPageX, opcode B4 (R182, R125). -/
def execLdyZpx (b1 : Byte) (s : State) : Ending := ldyOp (.memory (.zeroPageX b1)) s

/-- LDY AbsoluteX, opcode BC (R182, R128). -/
def execLdyAbx (w : Word) (s : State) : Ending := ldyOp (.memory (.absoluteX w)) s

/-- `StoreOperand(mode, A)` (R183). -/
def staOp (a : AddrForm) (s : State) : Ending := storeThen a s.a s

/-- STA IndirectX, opcode 81 (R183, R131). -/
def execStaIzx (b1 : Byte) (s : State) : Ending := staOp (.indirectX b1) s

/-- STA ZeroPage, opcode 85 (R183, R124). -/
def execStaZp (b1 : Byte) (s : State) : Ending := staOp (.zeroPage b1) s

/-- STA Absolute, opcode 8D (R183, R127). -/
def execStaAbs (w : Word) (s : State) : Ending := staOp (.absolute w) s

/-- STA IndirectY, opcode 91 (R183, R132). -/
def execStaIzy (b1 : Byte) (s : State) : Ending := staOp (.indirectY b1) s

/-- STA ZeroPageX, opcode 95 (R183, R125). -/
def execStaZpx (b1 : Byte) (s : State) : Ending := staOp (.zeroPageX b1) s

/-- STA AbsoluteY, opcode 99 (R183, R129). -/
def execStaAby (w : Word) (s : State) : Ending := staOp (.absoluteY w) s

/-- STA AbsoluteX, opcode 9D (R183, R128). -/
def execStaAbx (w : Word) (s : State) : Ending := staOp (.absoluteX w) s

/-- `StoreOperand(mode, X)` (R184). -/
def stxOp (a : AddrForm) (s : State) : Ending := storeThen a s.x s

/-- STX ZeroPage, opcode 86 (R184, R124). -/
def execStxZp (b1 : Byte) (s : State) : Ending := stxOp (.zeroPage b1) s

/-- STX Absolute, opcode 8E (R184, R127). -/
def execStxAbs (w : Word) (s : State) : Ending := stxOp (.absolute w) s

/-- STX ZeroPageY, opcode 96 (R184, R126). -/
def execStxZpy (b1 : Byte) (s : State) : Ending := stxOp (.zeroPageY b1) s

/-- `StoreOperand(mode, Y)` (R185). -/
def styOp (a : AddrForm) (s : State) : Ending := storeThen a s.y s

/-- STY ZeroPage, opcode 84 (R185, R124). -/
def execStyZp (b1 : Byte) (s : State) : Ending := styOp (.zeroPage b1) s

/-- STY Absolute, opcode 8C (R185, R127). -/
def execStyAbs (w : Word) (s : State) : Ending := styOp (.absolute w) s

/-- STY ZeroPageX, opcode 94 (R185, R125). -/
def execStyZpx (b1 : Byte) (s : State) : Ending := styOp (.zeroPageX b1) s

/-- TAX, opcode AA (R186): `X <- A; SetZN(X)`. -/
def execTax (s : State) : Ending := impliedThen (fun t => t.putX (resultSetFlags t.a t.flags)) s

/-- TAY, opcode A8 (R187): `Y <- A; SetZN(Y)`. -/
def execTay (s : State) : Ending := impliedThen (fun t => t.putY (resultSetFlags t.a t.flags)) s

/-- TXA, opcode 8A (R188): `A <- X; SetZN(A)`. -/
def execTxa (s : State) : Ending := impliedThen (fun t => t.putA (resultSetFlags t.x t.flags)) s

/-- TYA, opcode 98 (R189): `A <- Y; SetZN(A)`. -/
def execTya (s : State) : Ending := impliedThen (fun t => t.putA (resultSetFlags t.y t.flags)) s

/-- TSX, opcode BA (R190): `X <- SP; SetZN(X)`. -/
def execTsx (s : State) : Ending := impliedThen (fun t => t.putX (resultSetFlags t.sp t.flags)) s

/-- TXS, opcode 9A (R191): `SP <- X`, no flag written. -/
def execTxs (s : State) : Ending := impliedThen (fun t => t.setSp t.x) s

end Sys2Proof.Machine
end

