-- ==== Sys2Proof/Machine/Logic.lean ====
section
/-! DEFINITION. AND, ORA, EOR, BIT, INC, DEC, INX, INY, DEX, DEY (R160 to R169). -/

namespace Sys2Proof.Machine

/-- `A <- A & m; SetZN(A)` (R160). -/
def andOp (src : Source) (s : State) : Ending :=
  loadThen src (fun m t => t.putA (resultSetFlags (t.a &&& m) t.flags)) s

/-- AND IndirectX, opcode 21 (R160, R131). -/
def execAndIzx (b1 : Byte) (s : State) : Ending := andOp (.memory (.indirectX b1)) s

/-- AND ZeroPage, opcode 25 (R160, R124). -/
def execAndZp (b1 : Byte) (s : State) : Ending := andOp (.memory (.zeroPage b1)) s

/-- AND Immediate, opcode 29 (R160, R123). -/
def execAndImm (m : Byte) (s : State) : Ending := andOp (.immediate m) s

/-- AND Absolute, opcode 2D (R160, R127). -/
def execAndAbs (w : Word) (s : State) : Ending := andOp (.memory (.absolute w)) s

/-- AND IndirectY, opcode 31 (R160, R132). -/
def execAndIzy (b1 : Byte) (s : State) : Ending := andOp (.memory (.indirectY b1)) s

/-- AND ZeroPageX, opcode 35 (R160, R125). -/
def execAndZpx (b1 : Byte) (s : State) : Ending := andOp (.memory (.zeroPageX b1)) s

/-- AND AbsoluteY, opcode 39 (R160, R129). -/
def execAndAby (w : Word) (s : State) : Ending := andOp (.memory (.absoluteY w)) s

/-- AND AbsoluteX, opcode 3D (R160, R128). -/
def execAndAbx (w : Word) (s : State) : Ending := andOp (.memory (.absoluteX w)) s

/-- `A <- A or m; SetZN(A)` (R161). -/
def oraOp (src : Source) (s : State) : Ending :=
  loadThen src (fun m t => t.putA (resultSetFlags (t.a ||| m) t.flags)) s

/-- ORA IndirectX, opcode 01 (R161, R131). -/
def execOraIzx (b1 : Byte) (s : State) : Ending := oraOp (.memory (.indirectX b1)) s

/-- ORA ZeroPage, opcode 05 (R161, R124). -/
def execOraZp (b1 : Byte) (s : State) : Ending := oraOp (.memory (.zeroPage b1)) s

/-- ORA Immediate, opcode 09 (R161, R123). -/
def execOraImm (m : Byte) (s : State) : Ending := oraOp (.immediate m) s

/-- ORA Absolute, opcode 0D (R161, R127). -/
def execOraAbs (w : Word) (s : State) : Ending := oraOp (.memory (.absolute w)) s

/-- ORA IndirectY, opcode 11 (R161, R132). -/
def execOraIzy (b1 : Byte) (s : State) : Ending := oraOp (.memory (.indirectY b1)) s

/-- ORA ZeroPageX, opcode 15 (R161, R125). -/
def execOraZpx (b1 : Byte) (s : State) : Ending := oraOp (.memory (.zeroPageX b1)) s

/-- ORA AbsoluteY, opcode 19 (R161, R129). -/
def execOraAby (w : Word) (s : State) : Ending := oraOp (.memory (.absoluteY w)) s

/-- ORA AbsoluteX, opcode 1D (R161, R128). -/
def execOraAbx (w : Word) (s : State) : Ending := oraOp (.memory (.absoluteX w)) s

/-- `A <- A ^ m; SetZN(A)` (R162). -/
def eorOp (src : Source) (s : State) : Ending :=
  loadThen src (fun m t => t.putA (resultSetFlags (t.a ^^^ m) t.flags)) s

/-- EOR IndirectX, opcode 41 (R162, R131). -/
def execEorIzx (b1 : Byte) (s : State) : Ending := eorOp (.memory (.indirectX b1)) s

/-- EOR ZeroPage, opcode 45 (R162, R124). -/
def execEorZp (b1 : Byte) (s : State) : Ending := eorOp (.memory (.zeroPage b1)) s

/-- EOR Immediate, opcode 49 (R162, R123). -/
def execEorImm (m : Byte) (s : State) : Ending := eorOp (.immediate m) s

/-- EOR Absolute, opcode 4D (R162, R127). -/
def execEorAbs (w : Word) (s : State) : Ending := eorOp (.memory (.absolute w)) s

/-- EOR IndirectY, opcode 51 (R162, R132). -/
def execEorIzy (b1 : Byte) (s : State) : Ending := eorOp (.memory (.indirectY b1)) s

/-- EOR ZeroPageX, opcode 55 (R162, R125). -/
def execEorZpx (b1 : Byte) (s : State) : Ending := eorOp (.memory (.zeroPageX b1)) s

/-- EOR AbsoluteY, opcode 59 (R162, R129). -/
def execEorAby (w : Word) (s : State) : Ending := eorOp (.memory (.absoluteY w)) s

/-- EOR AbsoluteX, opcode 5D (R162, R128). -/
def execEorAbx (w : Word) (s : State) : Ending := eorOp (.memory (.absoluteX w)) s

/-- `Z` from `A & m`, `N` from `m[7]`, `V` from `m[6]` (R163). -/
def bitOp (src : Source) (s : State) : Ending :=
  loadThen src (fun m t => t.setFlags (bitTestSetFlags t.a m t.flags)) s

/-- BIT ZeroPage, opcode 24 (R163, R124). -/
def execBitZp (b1 : Byte) (s : State) : Ending := bitOp (.memory (.zeroPage b1)) s

/-- BIT Absolute, opcode 2C (R163, R127). -/
def execBitAbs (w : Word) (s : State) : Ending := bitOp (.memory (.absolute w)) s

/-- Increment memory (R164). -/
def incOp (a : AddrForm) (s : State) : Ending := modifyThen (.memory a) (fun v f => resultSetFlags (v + 1) f) s

/-- INC ZeroPage, opcode E6 (R164, R124). -/
def execIncZp (b1 : Byte) (s : State) : Ending := incOp (.zeroPage b1) s

/-- INC Absolute, opcode EE (R164, R127). -/
def execIncAbs (w : Word) (s : State) : Ending := incOp (.absolute w) s

/-- INC ZeroPageX, opcode F6 (R164, R125). -/
def execIncZpx (b1 : Byte) (s : State) : Ending := incOp (.zeroPageX b1) s

/-- INC AbsoluteX, opcode FE (R164, R128). -/
def execIncAbx (w : Word) (s : State) : Ending := incOp (.absoluteX w) s

/-- Decrement memory (R165). -/
def decOp (a : AddrForm) (s : State) : Ending := modifyThen (.memory a) (fun v f => resultSetFlags (v - 1) f) s

/-- DEC ZeroPage, opcode C6 (R165, R124). -/
def execDecZp (b1 : Byte) (s : State) : Ending := decOp (.zeroPage b1) s

/-- DEC Absolute, opcode CE (R165, R127). -/
def execDecAbs (w : Word) (s : State) : Ending := decOp (.absolute w) s

/-- DEC ZeroPageX, opcode D6 (R165, R125). -/
def execDecZpx (b1 : Byte) (s : State) : Ending := decOp (.zeroPageX b1) s

/-- DEC AbsoluteX, opcode DE (R165, R128). -/
def execDecAbx (w : Word) (s : State) : Ending := decOp (.absoluteX w) s

/-- INX, opcode E8 (R166): `X <- X + 1; SetZN(X)`. -/
def execInx (s : State) : Ending := impliedThen (fun t => t.putX (resultSetFlags (t.x + 1) t.flags)) s

/-- INY, opcode C8 (R167): `Y <- Y + 1; SetZN(Y)`. -/
def execIny (s : State) : Ending := impliedThen (fun t => t.putY (resultSetFlags (t.y + 1) t.flags)) s

/-- DEX, opcode CA (R168): `X <- X - 1; SetZN(X)`. -/
def execDex (s : State) : Ending := impliedThen (fun t => t.putX (resultSetFlags (t.x - 1) t.flags)) s

/-- DEY, opcode 88 (R169): `Y <- Y - 1; SetZN(Y)`. -/
def execDey (s : State) : Ending := impliedThen (fun t => t.putY (resultSetFlags (t.y - 1) t.flags)) s

end Sys2Proof.Machine
end

