-- ==== Sys2Proof/Machine/Shift.lean ====
section
/-! DEFINITION. ASL, LSR, ROL, ROR (R150 to R154). -/

namespace Sys2Proof.Machine

/-- Arithmetic shift left (R151). -/
def aslOp (t : Target) (s : State) : Ending := modifyThen t (shiftSetFlags aslBits) s

/-- ASL ZeroPage, opcode 06 (R151, R124). -/
def execAslZp (b1 : Byte) (s : State) : Ending := aslOp (.memory (.zeroPage b1)) s

/-- ASL Accumulator, opcode 0A (R151, R133). -/
def execAslAcc (s : State) : Ending := aslOp .accumulator s

/-- ASL Absolute, opcode 0E (R151, R127). -/
def execAslAbs (w : Word) (s : State) : Ending := aslOp (.memory (.absolute w)) s

/-- ASL ZeroPageX, opcode 16 (R151, R125). -/
def execAslZpx (b1 : Byte) (s : State) : Ending := aslOp (.memory (.zeroPageX b1)) s

/-- ASL AbsoluteX, opcode 1E (R151, R128). -/
def execAslAbx (w : Word) (s : State) : Ending := aslOp (.memory (.absoluteX w)) s

/-- Logical shift right (R152). -/
def lsrOp (t : Target) (s : State) : Ending := modifyThen t (shiftSetFlags lsrBits) s

/-- LSR ZeroPage, opcode 46 (R152, R124). -/
def execLsrZp (b1 : Byte) (s : State) : Ending := lsrOp (.memory (.zeroPage b1)) s

/-- LSR Accumulator, opcode 4A (R152, R133). -/
def execLsrAcc (s : State) : Ending := lsrOp .accumulator s

/-- LSR Absolute, opcode 4E (R152, R127). -/
def execLsrAbs (w : Word) (s : State) : Ending := lsrOp (.memory (.absolute w)) s

/-- LSR ZeroPageX, opcode 56 (R152, R125). -/
def execLsrZpx (b1 : Byte) (s : State) : Ending := lsrOp (.memory (.zeroPageX b1)) s

/-- LSR AbsoluteX, opcode 5E (R152, R128). -/
def execLsrAbx (w : Word) (s : State) : Ending := lsrOp (.memory (.absoluteX w)) s

/-- Rotate left through carry (R153). -/
def rolOp (t : Target) (s : State) : Ending := modifyThen t (shiftSetFlags rolBits) s

/-- ROL ZeroPage, opcode 26 (R153, R124). -/
def execRolZp (b1 : Byte) (s : State) : Ending := rolOp (.memory (.zeroPage b1)) s

/-- ROL Accumulator, opcode 2A (R153, R133). -/
def execRolAcc (s : State) : Ending := rolOp .accumulator s

/-- ROL Absolute, opcode 2E (R153, R127). -/
def execRolAbs (w : Word) (s : State) : Ending := rolOp (.memory (.absolute w)) s

/-- ROL ZeroPageX, opcode 36 (R153, R125). -/
def execRolZpx (b1 : Byte) (s : State) : Ending := rolOp (.memory (.zeroPageX b1)) s

/-- ROL AbsoluteX, opcode 3E (R153, R128). -/
def execRolAbx (w : Word) (s : State) : Ending := rolOp (.memory (.absoluteX w)) s

/-- Rotate right through carry (R154). -/
def rorOp (t : Target) (s : State) : Ending := modifyThen t (shiftSetFlags rorBits) s

/-- ROR ZeroPage, opcode 66 (R154, R124). -/
def execRorZp (b1 : Byte) (s : State) : Ending := rorOp (.memory (.zeroPage b1)) s

/-- ROR Accumulator, opcode 6A (R154, R133). -/
def execRorAcc (s : State) : Ending := rorOp .accumulator s

/-- ROR Absolute, opcode 6E (R154, R127). -/
def execRorAbs (w : Word) (s : State) : Ending := rorOp (.memory (.absolute w)) s

/-- ROR ZeroPageX, opcode 76 (R154, R125). -/
def execRorZpx (b1 : Byte) (s : State) : Ending := rorOp (.memory (.zeroPageX b1)) s

/-- ROR AbsoluteX, opcode 7E (R154, R128). -/
def execRorAbx (w : Word) (s : State) : Ending := rorOp (.memory (.absoluteX w)) s

end Sys2Proof.Machine
end

