-- ==== Sys2Proof/Machine/Stack.lean ====
section
/-! DEFINITION. PHA, PLA, PHP, PLP, JSR, RTS, RTI, BRK (R204 to R213). -/

namespace Sys2Proof.Machine

/-- PHA, opcode 48 (R204): `StackPush(A)`. -/
def execPha (s : State) : Ending :=
  andThen (stackPush s.a s) fun t => .next (t.advance 1)

/-- PLA, opcode 68 (R205): `A <- StackPull(); SetZN(A)`. -/
def execPla (s : State) : Ending :=
  andThen (stackPull s) fun v => .next ((v.2.putA (resultSetFlags v.1 v.2.flags)).advance 1)

/-- PHP, opcode 08 (R206): `StackPush(Pack())`. -/
def execPhp (s : State) : Ending :=
  andThen (stackPush (packFlags s.cfg.phpBit5 s.flags) s) fun t => .next (t.advance 1)

/-- PLP, opcode 28 (R207): `Unpack(StackPull())`. -/
def execPlp (s : State) : Ending :=
  andThen (stackPull s) fun v => .next ((v.2.setFlags (unpackFlags v.1)).advance 1)

/-- JSR, opcode 20 (R208): `PushWord(PC + 2); PC <- w`. -/
def execJsr (w : Word) (s : State) : Ending :=
  andThen (pushWord (s.pc + 2) s) fun t => .next (t.setPc w)

/-- RTS, opcode 60 (R209): `PC <- PullWord() + 1`. -/
def execRts (s : State) : Ending :=
  andThen (pullWord s) fun w => .next (w.2.setPc (w.1 + 1))

/-- RTI, opcode 40 (R210): `Unpack(StackPull()); PC <- PullWord()`. -/
def execRti (s : State) : Ending := returnFromInterrupt s

/-- BRK, opcode 00 (R211): `B <- 1`, the BRK signal, `PC <- PC + 1`. -/
def execBrk (s : State) : Ending := .next ((raiseBreak s).advance 1)

end Sys2Proof.Machine
end

