-- ==== Sys2Proof/Machine/Lifecycle.lean ====
section
/-! DEFINITION. What the host can do to the system at an instruction boundary: construct, reset, run, halt (R37,
R280 to R292). -/

namespace Sys2Proof.Machine

/-- Construction (R280): the table is validated (R57), a configuration outside the spec is refused (R78), RAM and ROM are
zero, no peripheral runs, the bus is idle and nothing has been emitted. The registers, the flags and PrivRAM keep
the values they have: the spec leaves them unspecified (R44, D5, D6), so every state stands for one choice of them. -/
def constructSystem (s : State) : Ending :=
  match validateMap s.cfg.map with
  | some e => .next (s.setLife (.faulted (.configInvalid e)))
  | none =>
    if configFits s.cfg then
      .next ((((((((s.setRam []).setRom []).setGpuOut []).setGpuLog []).setTrace []).setBus .idle).setUnits
        ⟨.idle, .idle, .idle⟩).setLife .ready)
    else .refused .configOutsideStores

/-- `reset()` of a peripheral (R282), whatever its loop does (DESIGN CHOICE, log entry 19): RAM is cleared (R73), ROM loads the image (R75), the GPU has nothing to do. -/
def resetPeripheral (p : Peripheral) (s : State) : State :=
  match p with
  | .ram => s.setRam []
  | .rom => s.setRom (s.rom.load s.cfg.romImage s.cfg.romCap.toNat)
  | .gpu => s

/-- `reset()` of the CPU (R284): `PC <- 0xFFFB`, then the word at `PC + 1`, `PC + 2` is read through the memory path and
becomes `PC`. No other register and no flag is written. -/
def resetCpu (s : State) : Ending :=
  let s0 := s.setPc 0xFFFB
  andThen (memRead (s0.pc + 1) s0) fun lo =>
  andThen (memRead (lo.2.pc + 2) lo.2) fun hi => .next (hi.2.setPc (pair hi.1 lo.1))

/-- The effect of a host command in the lifecycle state that allows it (R37, R281, R290). In a faulted system no command
has any effect (R57, and log entry 8 for construct and halt); elsewhere a command out of its order is refused by name
(log entry 8). DESIGN CHOICE (log entry 19): an entry point of a peripheral outside the order of R281, on which the spec
is silent. In `ready`, `reset()` of a peripheral has its effect whatever its loop does, running and closed included; `run()` of
one whose loop runs leaves it running; `run()` of a closed one is refused; `halt()` closes a loop in whatever state it is;
and `reset()` and `run()` of the CPU are carried out whatever came before. -/
def hostCommand (cmd : HostCommand) (s : State) : Ending :=
  match s.life, cmd with
  | .faulted _, _ => .next s
  | .unconstructed, .construct => constructSystem s
  | .ready, .resetPeripheral p => .next (resetPeripheral p s)
  | .ready, .runPeripheral p =>
    if unitLife s.units p = .closed then .refused (.hostOutOfOrder cmd)
    else .next (s.setUnits (setUnit s.units p .running))
  | .ready, .resetCpu => resetCpu s
  | .ready, .runCpu => .next (s.setLife .running)
  | .running, .halt => .next (s.setLife .halted)
  | .ready, .haltPeripheral p => .next (s.setUnits (setUnit s.units p .closed))
  | .running, .haltPeripheral p => .next (s.setUnits (setUnit s.units p .closed))
  | .halted, .haltPeripheral p => .next (s.setUnits (setUnit s.units p .closed))
  | _, _ => .refused (.hostOutOfOrder cmd)

/-- The bring-up sequence of R281, up to `reset()` of the CPU. -/
def bringUp : List HostCommand :=
  [.construct,
   .resetPeripheral .ram, .resetPeripheral .rom, .resetPeripheral .gpu,
   .runPeripheral .ram, .runPeripheral .rom, .runPeripheral .gpu,
   .resetCpu]

/-- Host commands carried out one after another. -/
def runCommands (cmds : List HostCommand) (s : State) : Ending :=
  match cmds with
  | [] => .next s
  | c :: rest => andThen (hostCommand c s) fun s1 => runCommands rest s1

end Sys2Proof.Machine
end

