-- ==== Sys2Proof/Machine/Step.lean ====
section
/-! DEFINITION. One step of the system: the first waiting host command, or else one instruction (R120, R290). -/

namespace Sys2Proof.Machine

/-- One step. A waiting host command is carried out at the instruction boundary (R290, R292); with none waiting, one
instruction is fetched, decoded and executed (R120). DESIGN CHOICE (log entry 20): no step puts a command into `host`, so
steps alone ignore every BRK signal, which R213 leaves the host free to do; the halt with which R213 also lets the host
answer one is put into `host` from outside, between two steps. -/
def step (s : State) : Host.Outcome State Fault Refusal :=
  match s.host with
  | cmd :: rest => hostCommand cmd (s.setHost rest)
  | [] => cycle exec s

/-- The state with an instruction, numbered as the opcode table numbers it, stored where `step` fetches its next
instruction (log entry 5). -/
def State.withFetchWord (s : State) (nbits w : Nat) : State := s.placeTableWord nbits w

end Sys2Proof.Machine
end

