-- ==== Sys2Proof/Safety.lean ====
section
/-! DEFINITION. What counts as a system that can run, the invariant of the machine, and the words statements use for what
a step leaves unchanged. -/

namespace Sys2Proof.Machine

/-- Every peripheral runs its receive loop (R72, R289). -/
def allRunning : Units := ⟨.running, .running, .running⟩

/-- A system in which every access completes: the bus is idle (R36), every peripheral answers (R71, R292), and every window
fits its store (R78). Nothing is asked of the registers, the flags or any memory content. -/
abbrev State.Operational (s : State) : Prop :=
  s.bus = .idle ∧ s.units = allRunning ∧ configFits s.cfg = true

/-- The CPU can take a step now: no host command waits, and the system is ready or running (R37, R287). -/
abbrev State.CanStep (s : State) : Prop :=
  s.host = [] ∧ (s.life = .ready ∨ s.life = .running)

/-- The invariant of the machine at instruction boundaries: the three storages are in canonical form and the bus is
idle (R36). -/
abbrev State.Inv (s : State) : Prop :=
  s.privRam.wf = true ∧ s.ram.wf = true ∧ s.rom.wf = true ∧ s.bus = .idle

/-- The parts of the state no instruction writes: the bus between steps, the lifecycle, the peripherals' loops, the
configuration and the host's commands. -/
def SameSystem (s t : State) : Prop :=
  t.bus = s.bus ∧ t.life = s.life ∧ t.units = s.units ∧ t.cfg = s.cfg ∧ t.host = s.host

/-- The cell behind a virtual address: the store and the physical offset (R59). -/
def cellOf (c : SystemConfig) (v : Word) : Option (Store × Nat) :=
  (translate c v).map fun h => (h.1, h.2.toNat)

/-- No byte of any storage changed, no virtual address reads differently, and no character was emitted. -/
def SameStorage (s t : State) : Prop :=
  (∀ v, t.peek v = s.peek v) ∧ (∀ st off, t.byteAt st off = s.byteAt st off) ∧ t.gpuOut = s.gpuOut

/-- The one cell `cell` holds `d`, and every other byte of storage is unchanged; read by virtual address, every address
whose cell is another one reads as before. With `cell = none` nothing changed. -/
def StoresCell (s t : State) (cell : Option (Store × Nat)) (d : Byte) : Prop :=
  (∀ st off, t.byteAt st off = if cell = some (st, off) then d else s.byteAt st off) ∧
  (∀ v, (cell = none ∨ cellOf s.cfg v ≠ cell) → t.peek v = s.peek v)

/-- What a byte write of `d` to virtual address `v` does to storage and output (R60, R63, R77). -/
def StoresByte (s t : State) (v : Word) (d : Byte) : Prop :=
  StoresCell s t (writtenCell s.cfg v) d ∧ t.gpuOut = s.gpuOut ++ emittedChars s.cfg v d

/-- The PrivRAM cell the stack pointer designates (R21). -/
def stackCell (sp : Byte) : Option (Store × Nat) := some (.privRam, 0x100 + sp.toNat)

/-- The signed value of a sum or a difference lies outside the 8-bit range -128 .. 127. -/
def outsideSigned8 (t : Int) : Bool := decide (t < -128) || decide (127 < t)

/-- A sequence of events, newest first, in which every address message is followed at once by its data message on the
same peripheral's channel, and no data message stands alone: no two transactions interleave (R66 to R68). -/
def wellPaired : List Event → Bool
  | [] => true
  | .dataToCpu p _ :: .addr q .read _ :: rest => decide (p = q) && wellPaired rest
  | .dataFromCpu p _ :: .addr q .write _ :: rest => decide (p = q) && wellPaired rest
  | .unmappedRead _ :: rest => wellPaired rest
  | .unmappedWrite _ _ :: rest => wellPaired rest
  | .romWrite _ _ :: rest => wellPaired rest
  | .brkSignal :: rest => wellPaired rest
  | _ => false

/-- The number of BRK signals in a trace. -/
def brkSignals : List Event → Nat
  | [] => 0
  | .brkSignal :: rest => brkSignals rest + 1
  | _ :: rest => brkSignals rest

/-- The 105 illegal opcode values, as R108 lists them. -/
def illegalOpcodes : List Byte :=
  [0x02, 0x03, 0x04, 0x07, 0x0B, 0x0C, 0x0F, 0x12, 0x13, 0x14, 0x17, 0x1A, 0x1B, 0x1C, 0x1F, 0x22,
   0x23, 0x27, 0x2B, 0x2F, 0x32, 0x33, 0x34, 0x37, 0x3A, 0x3B, 0x3C, 0x3F, 0x42, 0x43, 0x44, 0x47,
   0x4B, 0x4F, 0x52, 0x53, 0x54, 0x57, 0x5A, 0x5B, 0x5C, 0x5F, 0x62, 0x63, 0x64, 0x67, 0x6B, 0x6F,
   0x72, 0x73, 0x74, 0x77, 0x7A, 0x7B, 0x7C, 0x7F, 0x80, 0x82, 0x83, 0x87, 0x89, 0x8B, 0x8F, 0x92,
   0x93, 0x97, 0x9B, 0x9C, 0x9E, 0x9F, 0xA3, 0xA7, 0xAB, 0xAF, 0xB2, 0xB3, 0xB7, 0xBB, 0xBF, 0xC2,
   0xC3, 0xC7, 0xCB, 0xCF, 0xD2, 0xD3, 0xD4, 0xD7, 0xDA, 0xDB, 0xDC, 0xDF, 0xE2, 0xE3, 0xE7, 0xEB,
   0xEF, 0xF2, 0xF3, 0xF4, 0xF7, 0xFA, 0xFB, 0xFC, 0xFF]

/-- The opcodes the dispatch table binds a mnemonic to, each with its mode, in ascending order (R104). -/
def formsOf (m : Mnemonic) : List (Byte × Mode) :=
  (dispatchTable.filter fun r => decide (r.mnemonic = m)).map fun r => (r.opcode, r.mode)

/-- The index registers and the stack pointer are unchanged. -/
def SameXYS (s t : State) : Prop := t.x = s.x ∧ t.y = s.y ∧ t.sp = s.sp

/-- `A`, `X`, `Y` and `SP` are unchanged. -/
def SameRegisters (s t : State) : Prop := t.a = s.a ∧ SameXYS s t

/-- `PC` has gone past an instruction with operand `o` (R122). -/
def PastInstr (s t : State) (o : Operand) : Prop := t.pc = s.pc + BitVec.ofNat 16 o.length

/-- What a modify-class instruction does with its result `r` (R136): `A <- r`, or one byte written at the effective
address, which is the one `effectiveAddress` computes in the state before the instruction. -/
def ModifiesTarget (s t : State) (tgt : Target) (r : Byte) : Prop :=
  match tgt with
  | .accumulator => t.a = r ∧ SameStorage s t
  | .memory a => t.a = s.a ∧ ∃ ea s1, effectiveAddress a s = .next (ea, s1) ∧ StoresByte s t ea r

end Sys2Proof.Machine
end

