-- ==== Sys2Proof/Certificates/Slice0/Obligations.lean ====
section
/-! DEFINITION. The statements for the provers. Every statement about an instruction holds for every configuration, every
register and memory content and every value of the free bit of PHP; `Operational` asks only that accesses complete. -/

open Sys2Proof Sys2Proof.Machine

/-! ## Encoding -/

/-- R100, R101, R103, R104: decoding the bytes of an instruction gives it back, whatever follows them. -/
def Obligations.DecodeOfEncode : Prop :=
  ∀ (i : Instr) (rest : List Byte), decode (encode i ++ rest) = .ok (i, rest)

/-- R100, R104: an instruction is read only from the bytes that encode it. -/
def Obligations.DecodedBytesAreTheEncoding : Prop :=
  ∀ (bs : List Byte) (i : Instr) (rest : List Byte), decode bs = .ok (i, rest) → bs = encode i ++ rest

/-- R101, R104, R110: words written out from the spec's encodings. -/
def Obligations.SpecWordsDecode : Prop :=
  decode [0xA9, 0x41] = .ok (.ldaImm 0x41, []) ∧ decode [0x8D, 0x00, 0x40] = .ok (.staAbs 0x4000, []) ∧
  decode [0x00] = .ok (.brk, []) ∧ decode [0x0A] = .ok (.aslAcc, []) ∧ decode [0xB5, 0x10] = .ok (.ldaZpx 0x10, []) ∧
  decode [0xB6, 0x10] = .ok (.ldxZpy 0x10, []) ∧ decode [0xBD, 0x00, 0x20] = .ok (.ldaAbx 0x2000, []) ∧
  decode [0x6C, 0x00, 0x20] = .ok (.jmpInd 0x2000, []) ∧ decode [0xA1, 0x10] = .ok (.ldaIzx 0x10, []) ∧
  decode [0xB1, 0x10] = .ok (.ldaIzy 0x10, []) ∧ decode [0xF0, 0xFB] = .ok (.beq 0xFB, [])

/-- R108, R255: exactly the 105 listed opcode bytes are refused as illegal, whatever follows them, and a step that fetches
one ends with the fault that names the byte and its address. That the fault carries no state, and stands for the machine
left with `PC` at the opcode and nothing changed, is log entry 9 (DEDUCED); that a `ready` system steps is log entry 6
(DESIGN CHOICE). -/
def Obligations.IllegalOpcodesFault : Prop :=
  illegalOpcodes.length = 105 ∧
  (∀ (op : Byte) (rest : List Byte), decode (op :: rest) = .error (.illegalOpcode op) ↔ op ∈ illegalOpcodes) ∧
  ∀ s : State, s.Operational → s.CanStep → s.peek s.pc ∈ illegalOpcodes →
    step s = .fault (.illegalOpcode (s.peek s.pc) s.pc)

/-- R106, R256: the dispatch table binds every opcode to a mode its mnemonic supports, so no byte sequence meets an opcode
bound to a mode its mnemonic lacks. -/
def Obligations.DispatchInconsistencyIsUnreachable : Prop :=
  (∀ r ∈ dispatchTable, r.mode ∈ r.mnemonic.modes) ∧
  ∀ (bs : List Byte) (op : Byte), decode bs ≠ .error (.unsupportedMode op)

/-! ## The instruction cycle -/

/-- R120, R121, R22: a step fetches the instruction at `PC` through the MMU, `PC` still on the opcode, and is `exec` of it;
the fetch changes nothing but the trace, the GPU's own log and the lifecycle. R120 gives a step while the system is
`running`; that a `ready` system steps, and becomes `running` by it, is log entry 6 (DESIGN CHOICE). -/
def Obligations.StepRunsDecodedInstruction : Prop :=
  ∀ (s : State) (i : Instr) (rest : List Byte), s.Operational → s.CanStep →
    decode [s.peek s.pc, s.peek (s.pc + 1), s.peek (s.pc + 2)] = .ok (i, rest) →
    i.wellFormed = true ∧
    ∃ s1, step s = exec i s1 ∧ s1.pc = s.pc ∧ SameRegisters s s1 ∧ s1.flags = s.flags ∧ SameStorage s s1 ∧
      s1.life = .running ∧ s1.bus = s.bus ∧ s1.units = s.units ∧ s1.cfg = s.cfg ∧ s1.host = s.host ∧
      s1.trace = readsEvents s ([s.pc, s.pc + 1, s.pc + 2].take i.operand.length) ++ s.trace

/-- R62, R252, R211: an opcode fetched from an unmapped address is 0x00, which is BRK. No peripheral is needed for it, and
nothing changes but what is named. That a `ready` system steps, and becomes `running` by it, is log entry 6 (DESIGN
CHOICE); that the step itself produces no answer of the host to the signal is log entry 20 (DESIGN CHOICE). -/
def Obligations.UnmappedOpcodeRunsBrk : Prop :=
  ∀ s : State, s.CanStep → translate s.cfg s.pc = none →
    step s = .next { s with
      pc := s.pc + 1
      flags := { s.flags with b := true }
      trace := [.brkSignal, .unmappedRead s.pc] ++ s.trace
      life := .running }

/-- R120, R255: from an operational system that can take a step, the step completes and leaves such a system again, or the
opcode is illegal. Nothing else can stop the CPU. R120 gives a step while the system is `running`; that a `ready` system
steps is log entry 6 (DESIGN CHOICE). That a system can step again after a BRK is log entries 14 (DEDUCED) and 20 (DESIGN
CHOICE): the signal does not block, and a halt that answers it comes from outside, between steps. -/
def Obligations.OperationalSystemProgresses : Prop :=
  ∀ s : State, s.Operational → s.CanStep →
    (∃ t, step s = .next t ∧ t.Operational ∧ t.CanStep) ∨
    (s.peek s.pc ∈ illegalOpcodes ∧ step s = .fault (.illegalOpcode (s.peek s.pc) s.pc))

/-! ## Operands -/

/-- R124 to R132: the effective address of every memory mode, `s` being the state before the operand is resolved, and the
pointer bytes read for it, in order. -/
def Obligations.EffectiveAddressOfEachMode : Prop :=
  ∀ (s : State) (b1 : Byte) (w : Word), s.Operational →
    let at_ := fun (a : AddrForm) (reads : List Word) (ea : Nat) =>
      ∃ s1, effectiveAddress a s = .next (s.address a, s1) ∧ (s.address a).toNat = ea % 65536 ∧
        s1.trace = readsEvents s reads ++ s.trace
    let zpHigh := fun (zp : Byte) => if s.cfg.zpPtrWrap then zext (zp + 1) else zext zp + 1
    at_ (.zeroPage b1) [] b1.toNat ∧
    at_ (.zeroPageX b1) [] ((b1.toNat + s.x.toNat) % 256) ∧
    at_ (.zeroPageY b1) [] ((b1.toNat + s.y.toNat) % 256) ∧
    at_ (.absolute w) [] w.toNat ∧
    at_ (.absoluteX w) [] (w.toNat + s.x.toNat) ∧
    at_ (.absoluteY w) [] (w.toNat + s.y.toNat) ∧
    at_ (.indirect w) [w, w + 1] ((s.peek w).toNat + 256 * (s.peek (w + 1)).toNat) ∧
    at_ (.indirectX b1) [zext (b1 + s.x), zpHigh (b1 + s.x)]
      ((s.peek (zext (b1 + s.x))).toNat + 256 * (s.peek (zpHigh (b1 + s.x))).toNat) ∧
    at_ (.indirectY b1) [zext b1, zpHigh b1]
      ((s.peek (zext b1)).toNat + 256 * (s.peek (zpHigh b1)).toNat + s.y.toNat)

/-- R138, R135, R136, R260: the accesses of every instruction after its fetch, in order, newest first in the trace: pointer
bytes, then the data read, then the data write. The instructions without a memory operand access nothing on the bus. -/
def Obligations.InstructionsAccessInOrder : Prop :=
  ∀ (i : Instr) (s : State), s.Operational →
    ∃ t, exec i s = .next t ∧
      match i.mnemonic with
      | .lda | .ldx | .ldy | .adc | .sbc | .cmp | .cpx | .cpy | .and | .ora | .eor | .bit =>
        ∃ src, i.operand = src.operand ∧ t.trace = readsEvents s (s.sourceReads src) ++ s.trace
      | .sta | .stx | .sty =>
        let v := if i.mnemonic = .sta then s.a else if i.mnemonic = .stx then s.x else s.y
        ∃ a, i.operand = .memory a ∧
          t.trace = writeEvents s.cfg (s.address a) v ++ readsEvents s (s.pointerReads a) ++ s.trace
      | .asl | .lsr | .rol | .ror | .inc | .dec =>
        match i.operand with
        | .memory a =>
          let v := (s.peek (s.address a)).toNat
          let r := if i.mnemonic = .asl then 2 * v else if i.mnemonic = .lsr then v / 2
            else if i.mnemonic = .rol then 2 * v + s.flags.c.toNat
            else if i.mnemonic = .ror then v / 2 + 128 * s.flags.c.toNat
            else if i.mnemonic = .inc then v + 1 else v + 255
          t.trace = writeEvents s.cfg (s.address a) (BitVec.ofNat 8 r) ++
            readsEvents s (s.pointerReads a ++ [s.address a]) ++ s.trace
        | .implied | .accumulator | .immediate _ | .relative _ => t.trace = s.trace
      | .jmp =>
        match i.operand with
        | .memory (.indirect w) => t.trace = readsEvents s [w, w + 1] ++ s.trace
        | _ => t.trace = s.trace
      | .brk => t.trace = .brkSignal :: s.trace
      | .tax | .tay | .txa | .tya | .tsx | .txs | .inx | .iny | .dex | .dey | .pha | .php | .pla | .plp | .jsr | .rts
      | .rti | .bcc | .bcs | .beq | .bne | .bmi | .bpl | .bvc | .bvs | .clc | .sec | .cli | .sei | .cld | .sed | .clv
      | .nop => t.trace = s.trace

/-! ## Arithmetic and compare -/

/-- R141, R140: ADC. -/
def Obligations.AdcAddsWithCarry : Prop :=
  formsOf .adc = [(0x61, .indirectX), (0x65, .zeroPage), (0x69, .immediate), (0x6D, .absolute), (0x71, .indirectY),
    (0x75, .zeroPageX), (0x79, .absoluteY), (0x7D, .absoluteX)] ∧
  ∀ (i : Instr) (s : State), i.mnemonic = .adc → s.Operational →
    ∃ src t, i.operand = src.operand ∧ exec i s = .next t ∧
      let m := s.operandValue src
      let sum := s.a.toNat + m.toNat + s.flags.c.toNat
      t.a = BitVec.ofNat 8 sum ∧
      t.flags = { s.flags with
        c := decide (256 ≤ sum)
        v := outsideSigned8 (s.a.toInt + m.toInt + s.flags.c.toNat)
        z := decide (sum % 256 = 0)
        n := decide (128 ≤ sum % 256) } ∧
      PastInstr s t i.operand ∧ SameXYS s t ∧ SameStorage s t ∧ SameSystem s t

/-- R144, R143: SBC, `C = 1` meaning no borrow. -/
def Obligations.SbcSubtractsWithBorrow : Prop :=
  formsOf .sbc = [(0xE1, .indirectX), (0xE5, .zeroPage), (0xE9, .immediate), (0xED, .absolute), (0xF1, .indirectY),
    (0xF5, .zeroPageX), (0xF9, .absoluteY), (0xFD, .absoluteX)] ∧
  ∀ (i : Instr) (s : State), i.mnemonic = .sbc → s.Operational →
    ∃ src t, i.operand = src.operand ∧ exec i s = .next t ∧
      let m := s.operandValue src
      let borrow := 1 - s.flags.c.toNat
      let diff : Int := s.a.toNat - m.toNat - borrow
      t.a = BitVec.ofInt 8 diff ∧
      t.flags = { s.flags with
        c := decide (m.toNat + borrow ≤ s.a.toNat)
        v := outsideSigned8 (s.a.toInt - m.toInt - borrow)
        z := decide (diff % 256 = 0)
        n := decide (128 ≤ diff % 256) } ∧
      PastInstr s t i.operand ∧ SameXYS s t ∧ SameStorage s t ∧ SameSystem s t

/-- R145 to R148: CMP, CPX and CPY set `C` when the register is not below the byte, `Z` when they are equal, `N` from the
difference, and change nothing else: not `V`, not the register. The carry in is 1 whatever `C` holds. -/
def Obligations.CompareSetsCarryZeroNegative : Prop :=
  formsOf .cmp = [(0xC1, .indirectX), (0xC5, .zeroPage), (0xC9, .immediate), (0xCD, .absolute), (0xD1, .indirectY),
    (0xD5, .zeroPageX), (0xD9, .absoluteY), (0xDD, .absoluteX)] ∧
  formsOf .cpx = [(0xE0, .immediate), (0xE4, .zeroPage), (0xEC, .absolute)] ∧ formsOf .cpy = [(0xC0, .immediate),
    (0xC4, .zeroPage), (0xCC, .absolute)] ∧
  ∀ (i : Instr) (s : State) (r : Byte), s.Operational →
    (i.mnemonic = .cmp ∧ r = s.a ∨ i.mnemonic = .cpx ∧ r = s.x ∨ i.mnemonic = .cpy ∧ r = s.y) →
    ∃ src t, i.operand = src.operand ∧ exec i s = .next t ∧
      let m := s.operandValue src
      t.flags = { s.flags with
        c := decide (m.toNat ≤ r.toNat)
        z := decide (r = m)
        n := decide (128 ≤ ((r.toNat : Int) - m.toNat) % 256) } ∧
      PastInstr s t i.operand ∧ SameRegisters s t ∧ SameStorage s t ∧ SameSystem s t

/-- R142: ADC and SBC compute the same with any value of `D`; the two runs differ in `D` alone. -/
def Obligations.DecimalFlagHasNoEffect : Prop :=
  ∀ (i : Instr) (s : State) (d : Bool), (i.mnemonic = .adc ∨ i.mnemonic = .sbc) → s.Operational →
    ∃ t, exec i s = .next t ∧
      exec i { s with flags := { s.flags with d := d } } = .next { t with flags := { t.flags with d := d } }

/-! ## Shift and rotate -/

/-- R151, R150: ASL. -/
def Obligations.AslShiftsLeft : Prop :=
  formsOf .asl = [(0x06, .zeroPage), (0x0A, .accumulator), (0x0E, .absolute), (0x16, .zeroPageX),
    (0x1E, .absoluteX)] ∧
  ∀ (i : Instr) (s : State), i.mnemonic = .asl → s.Operational → s.Inv →
    ∃ tgt t r, i.operand = tgt.operand ∧ exec i s = .next t ∧
      let v := s.targetValue tgt
      r = BitVec.ofNat 8 (2 * v.toNat) ∧ ModifiesTarget s t tgt r ∧
      t.flags = { s.flags with c := decide (128 ≤ v.toNat), z := decide (r.toNat = 0), n := decide (128 ≤ r.toNat) } ∧
      PastInstr s t i.operand ∧ SameXYS s t ∧ SameSystem s t

/-- R152, R150: LSR; `N` is always 0 afterwards. -/
def Obligations.LsrShiftsRight : Prop :=
  formsOf .lsr = [(0x46, .zeroPage), (0x4A, .accumulator), (0x4E, .absolute), (0x56, .zeroPageX),
    (0x5E, .absoluteX)] ∧
  ∀ (i : Instr) (s : State), i.mnemonic = .lsr → s.Operational → s.Inv →
    ∃ tgt t r, i.operand = tgt.operand ∧ exec i s = .next t ∧
      let v := s.targetValue tgt
      r = BitVec.ofNat 8 (v.toNat / 2) ∧ ModifiesTarget s t tgt r ∧
      t.flags = { s.flags with c := decide (v.toNat % 2 = 1), z := decide (r.toNat = 0), n := false } ∧
      PastInstr s t i.operand ∧ SameXYS s t ∧ SameSystem s t

/-- R153, R150: ROL; `C` is the value before the instruction. -/
def Obligations.RolRotatesLeft : Prop :=
  formsOf .rol = [(0x26, .zeroPage), (0x2A, .accumulator), (0x2E, .absolute), (0x36, .zeroPageX),
    (0x3E, .absoluteX)] ∧
  ∀ (i : Instr) (s : State), i.mnemonic = .rol → s.Operational → s.Inv →
    ∃ tgt t r, i.operand = tgt.operand ∧ exec i s = .next t ∧
      let v := s.targetValue tgt
      r = BitVec.ofNat 8 (2 * v.toNat + s.flags.c.toNat) ∧ ModifiesTarget s t tgt r ∧
      t.flags = { s.flags with c := decide (128 ≤ v.toNat), z := decide (r.toNat = 0), n := decide (128 ≤ r.toNat) } ∧
      PastInstr s t i.operand ∧ SameXYS s t ∧ SameSystem s t

/-- R154, R150: ROR; `N` afterwards is the `C` before. -/
def Obligations.RorRotatesRight : Prop :=
  formsOf .ror = [(0x66, .zeroPage), (0x6A, .accumulator), (0x6E, .absolute), (0x76, .zeroPageX),
    (0x7E, .absoluteX)] ∧
  ∀ (i : Instr) (s : State), i.mnemonic = .ror → s.Operational → s.Inv →
    ∃ tgt t r, i.operand = tgt.operand ∧ exec i s = .next t ∧
      let v := s.targetValue tgt
      r = BitVec.ofNat 8 (v.toNat / 2 + 128 * s.flags.c.toNat) ∧ ModifiesTarget s t tgt r ∧
      t.flags = { s.flags with c := decide (v.toNat % 2 = 1), z := decide (r.toNat = 0), n := s.flags.c } ∧
      PastInstr s t i.operand ∧ SameXYS s t ∧ SameSystem s t

/-! ## Logic, bit test, increment, decrement -/

/-- R160, R161, R162: AND, ORA, EOR, bit by bit, with `Z` and `N` from the result. -/
def Obligations.LogicActsBitwise : Prop :=
  formsOf .and = [(0x21, .indirectX), (0x25, .zeroPage), (0x29, .immediate), (0x2D, .absolute), (0x31, .indirectY),
    (0x35, .zeroPageX), (0x39, .absoluteY), (0x3D, .absoluteX)] ∧
  formsOf .ora = [(0x01, .indirectX), (0x05, .zeroPage), (0x09, .immediate), (0x0D, .absolute), (0x11, .indirectY),
    (0x15, .zeroPageX), (0x19, .absoluteY), (0x1D, .absoluteX)] ∧
  formsOf .eor = [(0x41, .indirectX), (0x45, .zeroPage), (0x49, .immediate), (0x4D, .absolute), (0x51, .indirectY),
    (0x55, .zeroPageX), (0x59, .absoluteY), (0x5D, .absoluteX)] ∧
  ∀ (i : Instr) (s : State) (g : Bool → Bool → Bool), s.Operational →
    (i.mnemonic = .and ∧ g = Bool.and ∨ i.mnemonic = .ora ∧ g = Bool.or ∨ i.mnemonic = .eor ∧ g = Bool.xor) →
    ∃ src t, i.operand = src.operand ∧ exec i s = .next t ∧
      (∀ k, k < 8 → t.a.getLsbD k = g (s.a.getLsbD k) ((s.operandValue src).getLsbD k)) ∧
      t.flags = { s.flags with z := decide (t.a.toNat = 0), n := decide (128 ≤ t.a.toNat) } ∧
      PastInstr s t i.operand ∧ SameXYS s t ∧ SameStorage s t ∧ SameSystem s t

/-- R163: BIT; `N` and `V` come from the memory byte, `Z` from `A & m`. -/
def Obligations.BitTestsMemory : Prop :=
  formsOf .bit = [(0x24, .zeroPage), (0x2C, .absolute)] ∧
  ∀ (i : Instr) (s : State), i.mnemonic = .bit → s.Operational →
    ∃ a t, i.operand = .memory a ∧ exec i s = .next t ∧
      let m := s.peek (s.address a)
      t.flags = { s.flags with
        z := decide ((s.a &&& m).toNat = 0)
        n := decide (128 ≤ m.toNat)
        v := decide (64 ≤ m.toNat % 128) } ∧
      PastInstr s t i.operand ∧ SameRegisters s t ∧ SameStorage s t ∧ SameSystem s t

/-- R164, R165: INC and DEC of a memory byte, modulo 256; `C` and `V` unchanged. -/
def Obligations.IncDecChangeMemoryByOne : Prop :=
  formsOf .inc = [(0xE6, .zeroPage), (0xEE, .absolute), (0xF6, .zeroPageX), (0xFE, .absoluteX)] ∧
  formsOf .dec = [(0xC6, .zeroPage), (0xCE, .absolute), (0xD6, .zeroPageX), (0xDE, .absoluteX)] ∧
  ∀ (i : Instr) (s : State) (k : Nat), s.Operational → s.Inv →
    (i.mnemonic = .inc ∧ k = 1 ∨ i.mnemonic = .dec ∧ k = 255) →
    ∃ a t r, i.operand = .memory a ∧ exec i s = .next t ∧
      r = BitVec.ofNat 8 ((s.peek (s.address a)).toNat + k) ∧
      (∃ ea s1, effectiveAddress a s = .next (ea, s1) ∧ StoresByte s t ea r) ∧
      t.flags = { s.flags with z := decide (r.toNat = 0), n := decide (128 ≤ r.toNat) } ∧
      PastInstr s t i.operand ∧ SameRegisters s t ∧ SameSystem s t

/-- R166 to R169: INX, INY, DEX, DEY, modulo 256; everything but the register, `Z`, `N` and `PC` is unchanged. -/
def Obligations.IndexStepsWrap : Prop :=
  formsOf .inx = [(0xE8, .implied)] ∧ formsOf .iny = [(0xC8, .implied)] ∧ formsOf .dex = [(0xCA, .implied)] ∧
  formsOf .dey = [(0x88, .implied)] ∧
  ∀ s : State,
    let zn := fun (n : Nat) => { s.flags with z := decide (n % 256 = 0), n := decide (128 ≤ n % 256) }
    exec .inx s = .next { s with x := BitVec.ofNat 8 (s.x.toNat + 1), flags := zn (s.x.toNat + 1), pc := s.pc + 1 } ∧
    exec .iny s = .next { s with y := BitVec.ofNat 8 (s.y.toNat + 1), flags := zn (s.y.toNat + 1), pc := s.pc + 1 } ∧
    exec .dex s = .next { s with x := BitVec.ofNat 8 (s.x.toNat + 255), flags := zn (s.x.toNat + 255), pc := s.pc + 1 } ∧
    exec .dey s = .next { s with y := BitVec.ofNat 8 (s.y.toNat + 255), flags := zn (s.y.toNat + 255), pc := s.pc + 1 }

/-! ## Load, store, transfer -/

/-- R180: LDA. -/
def Obligations.LdaLoadsOperand : Prop :=
  formsOf .lda = [(0xA1, .indirectX), (0xA5, .zeroPage), (0xA9, .immediate), (0xAD, .absolute), (0xB1, .indirectY),
    (0xB5, .zeroPageX), (0xB9, .absoluteY), (0xBD, .absoluteX)] ∧
  ∀ (i : Instr) (s : State), i.mnemonic = .lda → s.Operational →
    ∃ src t, i.operand = src.operand ∧ exec i s = .next t ∧ t.a = s.operandValue src ∧
      t.flags = { s.flags with z := decide (t.a.toNat = 0), n := decide (128 ≤ t.a.toNat) } ∧
      PastInstr s t i.operand ∧ SameXYS s t ∧ SameStorage s t ∧ SameSystem s t

/-- R181, R182: LDX and LDY. -/
def Obligations.LdxLdyLoadOperand : Prop :=
  formsOf .ldx = [(0xA2, .immediate), (0xA6, .zeroPage), (0xAE, .absolute), (0xB6, .zeroPageY),
    (0xBE, .absoluteY)] ∧ formsOf .ldy = [(0xA0, .immediate), (0xA4, .zeroPage), (0xAC, .absolute),
    (0xB4, .zeroPageX), (0xBC, .absoluteX)] ∧
  ∀ (i : Instr) (s : State), s.Operational →
    (i.mnemonic = .ldx →
      ∃ src t, i.operand = src.operand ∧ exec i s = .next t ∧ t.x = s.operandValue src ∧ t.y = s.y ∧
        t.a = s.a ∧ t.sp = s.sp ∧
        t.flags = { s.flags with z := decide (t.x.toNat = 0), n := decide (128 ≤ t.x.toNat) } ∧
        PastInstr s t i.operand ∧ SameStorage s t ∧ SameSystem s t) ∧
    (i.mnemonic = .ldy →
      ∃ src t, i.operand = src.operand ∧ exec i s = .next t ∧ t.y = s.operandValue src ∧ t.x = s.x ∧
        t.a = s.a ∧ t.sp = s.sp ∧
        t.flags = { s.flags with z := decide (t.y.toNat = 0), n := decide (128 ≤ t.y.toNat) } ∧
        PastInstr s t i.operand ∧ SameStorage s t ∧ SameSystem s t)

/-- R183, R184, R185: STA, STX, STY write one byte at the effective address and change no register and no flag; the messages
and diagnostics of the write follow those of the pointer. -/
def Obligations.StoresWriteOneByte : Prop :=
  formsOf .sta = [(0x81, .indirectX), (0x85, .zeroPage), (0x8D, .absolute), (0x91, .indirectY), (0x95, .zeroPageX),
    (0x99, .absoluteY), (0x9D, .absoluteX)] ∧
  formsOf .stx = [(0x86, .zeroPage), (0x8E, .absolute), (0x96, .zeroPageY)] ∧ formsOf .sty = [(0x84, .zeroPage),
    (0x8C, .absolute), (0x94, .zeroPageX)] ∧
  ∀ (i : Instr) (s : State) (r : Byte), s.Operational → s.Inv →
    (i.mnemonic = .sta ∧ r = s.a ∨ i.mnemonic = .stx ∧ r = s.x ∨ i.mnemonic = .sty ∧ r = s.y) →
    ∃ a t, i.operand = .memory a ∧ exec i s = .next t ∧
      (∃ ea s1, effectiveAddress a s = .next (ea, s1) ∧ StoresByte s t ea r) ∧
      t.trace = writeEvents s.cfg (s.address a) r ++ readsEvents s (s.pointerReads a) ++ s.trace ∧
      PastInstr s t i.operand ∧ SameRegisters s t ∧ t.flags = s.flags ∧ SameSystem s t

/-- R186 to R191: the six transfers; TXS alone writes no flag. -/
def Obligations.TransfersCopyRegister : Prop :=
  formsOf .tax = [(0xAA, .implied)] ∧ formsOf .tay = [(0xA8, .implied)] ∧ formsOf .txa = [(0x8A, .implied)] ∧
  formsOf .tya = [(0x98, .implied)] ∧
  formsOf .tsx = [(0xBA, .implied)] ∧ formsOf .txs = [(0x9A, .implied)] ∧
  ∀ s : State,
    let zn := fun (v : Byte) => { s.flags with z := decide (v.toNat = 0), n := decide (128 ≤ v.toNat) }
    exec .tax s = .next { s with x := s.a, flags := zn s.a, pc := s.pc + 1 } ∧
    exec .tay s = .next { s with y := s.a, flags := zn s.a, pc := s.pc + 1 } ∧
    exec .txa s = .next { s with a := s.x, flags := zn s.x, pc := s.pc + 1 } ∧
    exec .tya s = .next { s with a := s.y, flags := zn s.y, pc := s.pc + 1 } ∧
    exec .tsx s = .next { s with x := s.sp, flags := zn s.sp, pc := s.pc + 1 } ∧
    exec .txs s = .next { s with sp := s.x, pc := s.pc + 1 }

/-! ## Stack, subroutine, break -/

/-- R204, R206, R200, R26: PHA and PHP write one byte at `0x100 + SP` of PrivRAM, then `SP` goes down by one modulo 256. PHP
pushes the seven flags at their places, with `PHP_BIT5` in bit 5. -/
def Obligations.PushesWriteStackCell : Prop :=
  formsOf .pha = [(0x48, .implied)] ∧ formsOf .php = [(0x08, .implied)] ∧
  ∀ (i : Instr) (s : State) (v : Byte), s.Operational → s.Inv →
    (i = .pha ∧ v = s.a ∨
      i = .php ∧ v.getLsbD 0 = s.flags.c ∧ v.getLsbD 1 = s.flags.z ∧ v.getLsbD 2 = s.flags.i ∧
        v.getLsbD 3 = s.flags.d ∧ v.getLsbD 4 = s.flags.b ∧ v.getLsbD 5 = s.cfg.phpBit5 ∧
        v.getLsbD 6 = s.flags.v ∧ v.getLsbD 7 = s.flags.n) →
    ∃ t, exec i s = .next t ∧ StoresCell s t (stackCell s.sp) v ∧ t.gpuOut = s.gpuOut ∧
      t.sp.toNat = (s.sp.toNat + 255) % 256 ∧ t.pc = s.pc + 1 ∧ t.a = s.a ∧ t.x = s.x ∧ t.y = s.y ∧
      t.flags = s.flags ∧ t.trace = s.trace ∧ SameSystem s t

/-- R205, R207, R201, R27: PLA and PLP raise `SP` by one modulo 256 and read the byte there; PLA sets `Z` and `N`, PLP
writes all seven flags and ignores bit 5. -/
def Obligations.PullsReadStackCell : Prop :=
  formsOf .pla = [(0x68, .implied)] ∧ formsOf .plp = [(0x28, .implied)] ∧
  ∀ s : State, s.Operational →
    let v := s.byteAt .privRam (0x100 + (s.sp.toNat + 1) % 256)
    exec .pla s = .next { s with
      a := v
      sp := BitVec.ofNat 8 (s.sp.toNat + 1)
      flags := { s.flags with z := decide (v.toNat = 0), n := decide (128 ≤ v.toNat) }
      pc := s.pc + 1 } ∧
    exec .plp s = .next { s with
      sp := BitVec.ofNat 8 (s.sp.toNat + 1)
      flags := ⟨v.getLsbD 0, v.getLsbD 1, v.getLsbD 2, v.getLsbD 3, v.getLsbD 4, v.getLsbD 6, v.getLsbD 7⟩
      pc := s.pc + 1 }

/-- R27: `Unpack(b)` takes each flag from its bit and ignores bit 5; after it, `Pack()` is `b` with bit 5 replaced by
`PHP_BIT5`. -/
def Obligations.UnpackThenPack : Prop :=
  ∀ (b : Byte) (bit5 : Bool),
    unpackFlags b =
      { c := b.getLsbD 0, z := b.getLsbD 1, i := b.getLsbD 2, d := b.getLsbD 3, b := b.getLsbD 4, v := b.getLsbD 6,
        n := b.getLsbD 7 } ∧
    packFlags bit5 (unpackFlags b) = (b &&& 0xDF) ||| (BitVec.ofNat 8 bit5.toNat <<< 5)

/-- R208, R202, R200: JSR pushes `PC + 2`, high byte first, and jumps; no flag and no other register changes. -/
def Obligations.JsrPushesReturnAddress : Prop :=
  formsOf .jsr = [(0x20, .absolute)] ∧
  ∀ (s : State) (w : Word), s.Operational → s.Inv →
    ∃ t, exec (.jsr w) s = .next t ∧ t.pc = w ∧ t.sp = s.sp - 2 ∧ t.a = s.a ∧ t.x = s.x ∧ t.y = s.y ∧
      t.flags = s.flags ∧ t.trace = s.trace ∧ t.gpuOut = s.gpuOut ∧ SameSystem s t ∧
      (∀ st off, t.byteAt st off =
        if stackCell (s.sp - 1) = some (st, off) then BitVec.ofNat 8 (s.pc + 2).toNat
        else if stackCell s.sp = some (st, off) then BitVec.ofNat 8 ((s.pc + 2).toNat / 256)
        else s.byteAt st off) ∧
      (∀ v, cellOf s.cfg v ≠ stackCell s.sp → cellOf s.cfg v ≠ stackCell (s.sp - 1) → t.peek v = s.peek v)

/-- R209, R203: RTS pulls a word, low byte first, and adds 1; nothing but `PC` and `SP` changes. A JSR and the RTS at its
target resume at the instruction after the JSR, with `SP` restored. -/
def Obligations.RtsReturnsPastWord : Prop :=
  formsOf .rts = [(0x60, .implied)] ∧
  (∀ s : State, s.Operational →
    exec .rts s = .next { s with
      sp := s.sp + 2
      pc := BitVec.ofNat 16
        ((s.byteAt .privRam (0x100 + (s.sp.toNat + 1) % 256)).toNat +
          256 * (s.byteAt .privRam (0x100 + (s.sp.toNat + 2) % 256)).toNat + 1) }) ∧
  ∀ (s : State) (w : Word), s.Operational → s.Inv →
    ∃ t u, exec (.jsr w) s = .next t ∧ exec .rts t = .next u ∧ u.pc = s.pc + 3 ∧ SameRegisters s u ∧ u.flags = s.flags

/-- R210, R27, R203: RTI pulls the status byte, then `PC` low byte first, and adds nothing. -/
def Obligations.RtiRestoresStatusAndPc : Prop :=
  formsOf .rti = [(0x40, .implied)] ∧
  ∀ s : State, s.Operational →
    let p := s.byteAt .privRam (0x100 + (s.sp.toNat + 1) % 256)
    exec .rti s = .next { s with
      sp := s.sp + 3
      flags := ⟨p.getLsbD 0, p.getLsbD 1, p.getLsbD 2, p.getLsbD 3, p.getLsbD 4, p.getLsbD 6, p.getLsbD 7⟩
      pc := BitVec.ofNat 16
        ((s.byteAt .privRam (0x100 + (s.sp.toNat + 2) % 256)).toNat +
          256 * (s.byteAt .privRam (0x100 + (s.sp.toNat + 3) % 256)).toNat) }

/-- R211, R212, R259: BRK sets `B`, emits one BRK signal and advances `PC` by 1; nothing else changes: nothing is pushed, no
vector is read, `I` keeps its value. -/
def Obligations.BrkSetsFlagAndSignals : Prop :=
  formsOf .brk = [(0x00, .implied)] ∧
  ∀ s : State, exec .brk s =
    .next { s with flags := { s.flags with b := true }, trace := .brkSignal :: s.trace, pc := s.pc + 1 }

/-- R203: a pulled word has the first byte pulled as its low byte; a word pushed and pulled is the same word, and `SP` is
where it was, across the wrap too. -/
def Obligations.PushedWordIsPulledBack : Prop :=
  ∀ (s : State) (w : Word), s.Operational →
    pullWord s = .next (BitVec.ofNat 16
        ((s.byteAt .privRam (0x100 + (s.sp.toNat + 1) % 256)).toNat +
          256 * (s.byteAt .privRam (0x100 + (s.sp.toNat + 2) % 256)).toNat), { s with sp := s.sp + 2 }) ∧
    (s.Inv → ∃ t u, pushWord w s = .next t ∧ t.sp = s.sp - 2 ∧ pullWord t = .next (w, u) ∧ u.sp = s.sp)

/-! ## Branches, jumps, flags -/

/-- R220 to R228, R134: a branch whose condition holds goes to `PC + 2 + signed(b1)` modulo 2^16, any other to `PC + 2`; it
changes nothing but `PC`. -/
def Obligations.BranchesMovePc : Prop :=
  formsOf .bcc = [(0x90, .relative)] ∧ formsOf .bcs = [(0xB0, .relative)] ∧ formsOf .beq = [(0xF0, .relative)] ∧
  formsOf .bne = [(0xD0, .relative)] ∧
  formsOf .bmi = [(0x30, .relative)] ∧ formsOf .bpl = [(0x10, .relative)] ∧ formsOf .bvc = [(0x50, .relative)] ∧
  formsOf .bvs = [(0x70, .relative)] ∧
  ∀ (s : State) (d : Byte),
    let moved := fun (taken : Bool) =>
      { s with pc := if taken = true then BitVec.ofInt 16 (s.pc.toNat + 2 + d.toInt) else s.pc + 2 }
    exec (.bcc d) s = .next (moved (!s.flags.c)) ∧ exec (.bcs d) s = .next (moved s.flags.c) ∧
    exec (.beq d) s = .next (moved s.flags.z) ∧ exec (.bne d) s = .next (moved (!s.flags.z)) ∧
    exec (.bmi d) s = .next (moved s.flags.n) ∧ exec (.bpl d) s = .next (moved (!s.flags.n)) ∧
    exec (.bvc d) s = .next (moved (!s.flags.v)) ∧ exec (.bvs d) s = .next (moved s.flags.v)

/-- R229, R130: JMP; the indirect form reads the target's low byte at `w` and its high byte at `w + 1`, also across a page. -/
def Obligations.JmpGoesToTarget : Prop :=
  formsOf .jmp = [(0x4C, .absolute), (0x6C, .indirect)] ∧
  (∀ (s : State) (w : Word), exec (.jmpAbs w) s = .next { s with pc := w }) ∧
  ∀ (s : State) (w : Word), s.Operational →
    ∃ t, exec (.jmpInd w) s = .next t ∧
      t.pc.toNat = (s.peek w).toNat + 256 * (s.peek (w + 1)).toNat ∧
      SameRegisters s t ∧ t.flags = s.flags ∧ SameStorage s t ∧ SameSystem s t

/-- R240 to R247: the flag instructions write their one flag, NOP writes nothing. -/
def Obligations.FlagInstructionsWriteOneFlag : Prop :=
  formsOf .clc = [(0x18, .implied)] ∧ formsOf .sec = [(0x38, .implied)] ∧ formsOf .cli = [(0x58, .implied)] ∧
  formsOf .sei = [(0x78, .implied)] ∧
  formsOf .cld = [(0xD8, .implied)] ∧ formsOf .sed = [(0xF8, .implied)] ∧ formsOf .clv = [(0xB8, .implied)] ∧
  formsOf .nop = [(0xEA, .implied)] ∧
  ∀ s : State,
    exec .clc s = .next { s with flags := { s.flags with c := false }, pc := s.pc + 1 } ∧
    exec .sec s = .next { s with flags := { s.flags with c := true }, pc := s.pc + 1 } ∧
    exec .cli s = .next { s with flags := { s.flags with i := false }, pc := s.pc + 1 } ∧
    exec .sei s = .next { s with flags := { s.flags with i := true }, pc := s.pc + 1 } ∧
    exec .cld s = .next { s with flags := { s.flags with d := false }, pc := s.pc + 1 } ∧
    exec .sed s = .next { s with flags := { s.flags with d := true }, pc := s.pc + 1 } ∧
    exec .clv s = .next { s with flags := { s.flags with v := false }, pc := s.pc + 1 } ∧
    exec .nop s = .next { s with pc := s.pc + 1 }

/-! ## Memory, MMU and bus -/

/-- R60, R62, R66, R76, R252: a byte read by where its address translates to: the value, the messages, and no storage
changed. -/
def Obligations.ReadsAreRouted : Prop :=
  ∀ (s : State) (v : Word), s.Operational →
    ∃ d t, memRead v s = .next (d, t) ∧ SameRegisters s t ∧ t.pc = s.pc ∧ t.flags = s.flags ∧ SameStorage s t ∧
      SameSystem s t ∧
      match translate s.cfg v with
      | some (.privRam, pa) => d = s.privRam.read pa.toNat ∧ t.trace = s.trace
      | some (.ram, pa) => d = s.ram.read pa.toNat ∧ t.trace = [.dataToCpu .ram d, .addr .ram .read pa] ++ s.trace
      | some (.rom, pa) => d = s.rom.read pa.toNat ∧ t.trace = [.dataToCpu .rom d, .addr .rom .read pa] ++ s.trace
      | some (.gpu, pa) => d = 0 ∧ t.trace = [.dataToCpu .gpu d, .addr .gpu .read pa] ++ s.trace
      | none => d = 0 ∧ t.trace = .unmappedRead v :: s.trace

/-- R60, R63, R67, R77, R253, R254: a byte write by where its address translates to: the one cell that changes, the
character emitted, and the messages. -/
def Obligations.WritesAreRouted : Prop :=
  ∀ (s : State) (v : Word) (b : Byte), s.Operational → s.Inv →
    ∃ t, memWrite v b s = .next t ∧ SameRegisters s t ∧ t.pc = s.pc ∧ t.flags = s.flags ∧ SameSystem s t ∧
      match translate s.cfg v with
      | some (.privRam, pa) =>
        StoresCell s t (some (.privRam, pa.toNat)) b ∧ t.gpuOut = s.gpuOut ∧ t.trace = s.trace
      | some (.ram, pa) =>
        StoresCell s t (some (.ram, pa.toNat)) b ∧ t.gpuOut = s.gpuOut ∧
        t.trace = [.dataFromCpu .ram b, .addr .ram .write pa] ++ s.trace
      | some (.gpu, pa) =>
        StoresCell s t none b ∧ t.gpuOut = s.gpuOut ++ (if pa = 0 then [b] else []) ∧
        t.trace = [.dataFromCpu .gpu b, .addr .gpu .write pa] ++ s.trace
      | some (.rom, _) => SameStorage s t ∧ t.trace = .romWrite v b :: s.trace
      | none => SameStorage s t ∧ t.trace = .unmappedWrite v b :: s.trace

/-- R64, R51: a word read is two byte reads, the low byte at `v` first, the high byte at `v + 1` modulo 2^16. -/
def Obligations.WordReadIsLittleEndian : Prop :=
  ∀ (s : State) (v : Word), s.Operational →
    ∃ w t, memReadWord v s = .next (w, t) ∧ w.toNat = (s.peek v).toNat + 256 * (s.peek (v + 1)).toNat ∧
      t.trace = readEvents s.cfg (v + 1) (s.peek (v + 1)) ++ readEvents s.cfg v (s.peek v) ++ s.trace

/-- R59, R56: in a valid table the order of the entries cannot change what an address translates to. -/
def Obligations.ScanOrderIsIrrelevant : Prop :=
  ∀ (t u : List Mapping) (v : Word), validateMap t = none → t.Perm u → scanMap v u = scanMap v t

/-- R56, R57: construction accepts exactly the tables that meet the three invariants. -/
def Obligations.ValidTablesMeetInvariants : Prop :=
  ∀ t : List Mapping, validateMap t = none ↔
    (∀ (i j : Nat) (e f : Mapping), i < j → t[i]? = some e → t[j]? = some f →
      ∀ n : Nat, ¬ (e.virtStart.toNat ≤ n ∧ n < e.virtStart.toNat + e.size.toNat ∧
        f.virtStart.toNat ≤ n ∧ n < f.virtStart.toNat + f.size.toNat)) ∧
    (∃ e, t[0]? = some e ∧ e.store = .privRam) ∧
    (∀ (i : Nat) (e : Mapping), 1 ≤ i → t[i]? = some e → e.store ≠ .privRam)

/-- R58, R59: the default table, entry by entry, and its translation of every virtual address, 0x3FE0 to 0x3FFF unmapped.
That `State.reset` is the system with the default table is log entry 4 (DESIGN CHOICE). -/
def Obligations.DefaultTableTranslates : Prop :=
  State.reset.cfg.map =
    [{ virtStart := 0x0000, size := 0x2000, store := .privRam, physStart := 0 },
     { virtStart := 0x2000, size := 0x1FE0, store := .ram, physStart := 0 },
     { virtStart := 0x4000, size := 0x0020, store := .gpu, physStart := 0 },
     { virtStart := 0x4020, size := 0xBFE0, store := .rom, physStart := 0 }] ∧
  validateMap defaultMap = none ∧ configFits State.reset.cfg = true ∧
  ∀ v : Word, translate State.reset.cfg v =
    if v.toNat < 0x2000 then some (.privRam, BitVec.ofNat 32 v.toNat)
    else if v.toNat < 0x3FE0 then some (.ram, BitVec.ofNat 32 (v.toNat - 0x2000))
    else if v.toNat < 0x4000 then none
    else if v.toNat < 0x4020 then some (.gpu, BitVec.ofNat 32 (v.toNat - 0x4000))
    else some (.rom, BitVec.ofNat 32 (v.toNat - 0x4020))

/-- R70, R66 to R68: the four transitions of a bus transaction with a peripheral that runs, each changing nothing but what it
names; in the last the peripheral takes the byte (R73, R77). No transaction starts while one is in progress: that such a
message is answered as the fault `busOutOfTurn` is log entry 11 (DEDUCED). That the ROM, which no write message reaches,
would ignore one is log entry 15 (DESIGN CHOICE). -/
def Obligations.BusTakesFourTransitions : Prop :=
  ∀ (s : State) (p : Peripheral) (pa : PAddr) (v : Byte), unitLife s.units p = .running →
    (s.bus = .idle →
      busAddress p .read pa none s =
        .next { s with trace := .addr p .read pa :: s.trace, bus := .awaitData p .read pa none } ∧
      busAddress p .write pa (some v) s =
        .next { s with trace := .addr p .write pa :: s.trace, bus := .awaitData p .write pa (some v) }) ∧
    (s.bus ≠ .idle →
      busAddress p .read pa none s = .fault .busOutOfTurn ∧ busAddress p .write pa (some v) s = .fault .busOutOfTurn) ∧
    (pa.toNat < (capacity s.cfg (storeOf p)).toNat → s.bus = .awaitData p .read pa none →
      ∃ t, busData s = .next (s.byteAt (storeOf p) pa.toNat, t) ∧ t.bus = .idle ∧
        t.trace = .dataToCpu p (s.byteAt (storeOf p) pa.toNat) :: s.trace ∧ SameStorage s t ∧
        SameRegisters s t ∧ t.pc = s.pc ∧ t.flags = s.flags ∧ SameSystem { s with bus := .idle } t) ∧
    (pa.toNat < (capacity s.cfg (storeOf p)).toNat → s.ram.wf = true → s.bus = .awaitData p .write pa (some v) →
      ∃ d t, busData s = .next (d, t) ∧ t.bus = .idle ∧ t.trace = .dataFromCpu p v :: s.trace ∧
        StoresCell s t (if p = .ram then some (.ram, pa.toNat) else none) v ∧
        t.gpuOut = s.gpuOut ++ (if p = .gpu ∧ pa = 0 then [v] else []) ∧
        SameRegisters s t ∧ t.pc = s.pc ∧ t.flags = s.flags ∧ SameSystem { s with bus := .idle } t)

/-- R71: an access to a peripheral that is not running its loop is stuck waiting for it. That the outcome
`Stuck(WaitingFor(p))` is answered as the fault `waitingFor p` is log entry 10 (DEDUCED). -/
def Obligations.SilentPeripheralSticks : Prop :=
  ∀ (s : State) (v : Word) (b : Byte) (p : Peripheral) (pa : PAddr), s.bus = .idle → unitLife s.units p ≠ .running →
    translate s.cfg v = some (storeOf p, pa) →
    memRead v s = .fault (.waitingFor p) ∧ (p ≠ .rom → memWrite v b s = .fault (.waitingFor p))

/-! ## Construction, reset, run, halt -/

/-- R44, R286: the reset state, in the values the spec gives. The values of `A`, `X`, `Y`, `SP`, the flags and PrivRAM are the
model's (log entries 1 and 2) and are not stated; the default table and the empty image are log entry 4 (DESIGN CHOICE). -/
def Obligations.ResetStateOfSpec : Prop :=
  State.reset.pc = State.reset.peekWord 0xFFFC ∧ (∀ k, State.reset.ram.read k = 0) ∧
  (∀ k, State.reset.rom.read k = State.reset.cfg.romImage.getD k 0) ∧ State.reset.bus = .idle ∧
  State.reset.life = .ready ∧ State.reset.units = allRunning ∧ State.reset.cfg.map = defaultMap ∧
  State.reset.gpuOut = []

/-- R281 to R286, R44, R73, R75: the bring-up sequence from any unconstructed system with a valid configuration: `PC` is the
vector, RAM is zero and ROM is the image and then zeros. That the registers, flags and PrivRAM, which the spec leaves
unspecified, are those of the unconstructed state is log entry 18 (DEDUCED); that construction empties the trace and the
output is log entry 13 (DESIGN CHOICE). -/
def Obligations.BringUpReachesReady : Prop :=
  ∀ s : State, s.life = .unconstructed → validateMap s.cfg.map = none → configFits s.cfg = true →
    ∃ t, runCommands bringUp s = .next t ∧ t.life = .ready ∧ t.bus = .idle ∧ t.units = allRunning ∧
      t.pc = t.peekWord 0xFFFC ∧ SameRegisters s t ∧ t.flags = s.flags ∧ t.privRam = s.privRam ∧
      (∀ k, t.ram.read k = 0) ∧
      (∀ k, t.rom.read k = if k < s.cfg.romCap.toNat then s.cfg.romImage.getD k 0 else 0) ∧
      t.gpuOut = [] ∧ t.cfg = s.cfg ∧
      t.trace = readEvents s.cfg 0xFFFD (t.peek 0xFFFD) ++ readEvents s.cfg 0xFFFC (t.peek 0xFFFC)

/-- R284: `reset()` of the CPU reads the two vector bytes through the memory path, low byte first, and writes `PC` alone. -/
def Obligations.CpuResetLoadsVector : Prop :=
  ∀ s : State, s.life = .ready → s.Operational →
    ∃ t, hostCommand .resetCpu s = .next t ∧ t.pc.toNat = (s.peek 0xFFFC).toNat + 256 * (s.peek 0xFFFD).toNat ∧
      t.trace = readEvents s.cfg 0xFFFD (s.peek 0xFFFD) ++ readEvents s.cfg 0xFFFC (s.peek 0xFFFC) ++ s.trace ∧
      SameRegisters s t ∧ t.flags = s.flags ∧ SameStorage s t ∧ SameSystem s t

/-- R57: a system constructed with an invalid table is faulted; no host command has any effect on it and no step runs. That
construction answers a next state with a faulted lifecycle, and the next step the fault, is log entry 9 (DEDUCED); that
construct and halt have no effect either, beside the reset and run of R57, is log entry 8 (DESIGN CHOICE). -/
def Obligations.InvalidTableNeverRuns : Prop :=
  ∀ (s : State) (e : ConfigError), s.life = .unconstructed → validateMap s.cfg.map = some e →
    ∃ t, hostCommand .construct s = .next t ∧ t.life = .faulted (.configInvalid e) ∧
      (∀ cmd, hostCommand cmd t = .next t) ∧ (t.host = [] → step t = .fault (.configInvalid e))

/-- R290, R292: a halt takes effect at an instruction boundary, changes only the lifecycle, and no step follows it. The queue
of host commands is log entry 8 (DESIGN CHOICE); that the outcome `Halted` of R10 is answered as the fault `halted` is log
entry 10 (DEDUCED). -/
def Obligations.HaltStopsTheCpu : Prop :=
  ∀ (s : State) (rest : List HostCommand), s.life = .running → s.host = .halt :: rest →
    step s = .next { s with host := rest, life := .halted } ∧
    (rest = [] → step { s with host := rest, life := .halted } = .fault .halted)

/-! ## The whole machine -/

/-- R36, and the canonical form of storage: every step, of an instruction or of a host command, keeps the invariant. -/
def Obligations.StepKeepsInvariant : Prop :=
  ∀ s t : State, s.Inv → step s = .next t → t.Inv

/-- The invariant holds at reset. -/
def Obligations.ResetMeetsInvariant : Prop := State.reset.Inv

/-- R34, R32: no step changes the mapping table or any other parameter. -/
def Obligations.StepKeepsConfiguration : Prop :=
  ∀ s t : State, step s = .next t → t.cfg = s.cfg

/-- R254: no instruction changes ROM, whatever it writes and wherever. -/
def Obligations.InstructionsKeepRom : Prop :=
  ∀ s t : State, s.host = [] → step s = .next t → t.rom = s.rom

/-- R66 to R68: every step leaves a trace in which each address message is followed at once by its data message on the
same peripheral, so that no two transactions interleave. -/
def Obligations.BusMessagesStayPaired : Prop :=
  ∀ s t : State, wellPaired s.trace = true → step s = .next t → wellPaired t.trace = true

/-- R25: no instruction but those listed writes a flag. -/
def Obligations.OnlyListedInstructionsWriteFlags : Prop :=
  ∀ (i : Instr) (s t : State), exec i s = .next t →
    (i.mnemonic ∉ [.adc, .sbc, .cmp, .cpx, .cpy, .asl, .lsr, .rol, .ror, .clc, .sec, .plp, .rti] →
      t.flags.c = s.flags.c) ∧
    (i.mnemonic ∉ [.lda, .ldx, .ldy, .tax, .tay, .txa, .tya, .tsx, .pla, .and, .ora, .eor, .adc, .sbc, .cmp, .cpx, .cpy,
        .asl, .lsr, .rol, .ror, .inc, .dec, .inx, .iny, .dex, .dey, .bit, .plp, .rti] →
      t.flags.z = s.flags.z ∧ t.flags.n = s.flags.n) ∧
    (i.mnemonic ∉ [.sei, .cli, .plp, .rti] → t.flags.i = s.flags.i) ∧
    (i.mnemonic ∉ [.sed, .cld, .plp, .rti] → t.flags.d = s.flags.d) ∧
    (i.mnemonic ∉ [.brk, .plp, .rti] → t.flags.b = s.flags.b) ∧
    (i.mnemonic ∉ [.adc, .sbc, .bit, .clv, .plp, .rti] → t.flags.v = s.flags.v)

/-- R20, R21: no instruction but those listed writes `A`, `X`, `Y` or `SP`; a shift writes `A` in Accumulator mode only. -/
def Obligations.OnlyListedInstructionsWriteRegisters : Prop :=
  ∀ (i : Instr) (s t : State), exec i s = .next t →
    (i.mnemonic ∉ [.lda, .pla, .txa, .tya, .adc, .sbc, .and, .ora, .eor] → i.operand ≠ .accumulator → t.a = s.a) ∧
    (i.mnemonic ∉ [.ldx, .tax, .tsx, .inx, .dex] → t.x = s.x) ∧
    (i.mnemonic ∉ [.ldy, .tay, .iny, .dey] → t.y = s.y) ∧
    (i.mnemonic ∉ [.pha, .php, .pla, .plp, .jsr, .rts, .rti, .txs] → t.sp = s.sp)

/-- R41, R211: one BRK signal for each BRK, none for any other instruction. -/
def Obligations.OneSignalPerBrk : Prop :=
  ∀ (i : Instr) (s t : State), exec i s = .next t →
    brkSignals t.trace = brkSignals s.trace + if i = .brk then 1 else 0

/-- R77, R80: the characters emitted so far are never changed or reordered; an instruction adds at most one. -/
def Obligations.GpuOutputOnlyGrows : Prop :=
  ∀ (i : Instr) (s t : State), exec i s = .next t →
    ∃ out, t.gpuOut = s.gpuOut ++ out ∧ out.length ≤ 1
end

