-- ==== Sys2Proof/Laws/Decode.lean ====
section
/-! SUPPORT. The decoder's parts: which instruction a mnemonic and an operand name, which row of the dispatch table an
opcode finds, and the operand bytes of a mode. -/

namespace Sys2Proof

/-- An instruction is named by its mnemonic and its operand. -/
theorem Instr.ofForm_self (i : Instr) : Instr.ofForm i.mnemonic i.operand = some i := by cases i <;> rfl

/-- A mnemonic and an operand name no other instruction. -/
theorem Instr.ofForm_some {m : Mnemonic} {o : Operand} {i : Instr} (h : Instr.ofForm m o = some i) :
    i.mnemonic = m ∧ i.operand = o := by
  unfold Instr.ofForm at h
  split at h <;> split at h <;> cases h <;> exact ⟨rfl, rfl⟩

/-- A row found by its opcode is in the table and has that opcode. -/
theorem findOpcode_some {op : Byte} {t : List DispatchRow} {r : DispatchRow} (h : findOpcode op t = some r) :
    r ∈ t ∧ r.opcode = op := by
  induction t with
  | nil => cases h
  | cons f rest ih =>
    rw [findOpcode] at h
    split at h
    · cases h; exact ⟨List.mem_cons_self, ‹_›⟩
    · exact ⟨List.mem_cons_of_mem _ (ih h).1, (ih h).2⟩

/-- A row found by its form is in the table and has that form. -/
theorem findForm_some {m : Mnemonic} {md : Mode} {t : List DispatchRow} {r : DispatchRow}
    (h : findForm m md t = some r) : r ∈ t ∧ r.mnemonic = m ∧ r.mode = md := by
  induction t with
  | nil => cases h
  | cons f rest ih =>
    rw [findForm] at h
    split at h
    · cases h; exact ⟨List.mem_cons_self, ‹_›⟩
    · exact ⟨List.mem_cons_of_mem _ (ih h).1, (ih h).2⟩

/-- Every row of the dispatch table is found by its opcode and by its form: no opcode and no form stands twice (R104,
R105). -/
theorem dispatchTable_unambiguous :
    dispatchTable.all (fun r => decide (findOpcode r.opcode dispatchTable = some r ∧
      findForm r.mnemonic r.mode dispatchTable = some r)) = true := by decide +kernel

theorem findOpcode_of_mem {r : DispatchRow} (h : r ∈ dispatchTable) : findOpcode r.opcode dispatchTable = some r :=
  (of_decide_eq_true (List.all_eq_true.1 dispatchTable_unambiguous r h)).1

theorem findForm_of_mem {r : DispatchRow} (h : r ∈ dispatchTable) :
    findForm r.mnemonic r.mode dispatchTable = some r :=
  (of_decide_eq_true (List.all_eq_true.1 dispatchTable_unambiguous r h)).2

/-- The opcode of a form is bound to that form, and to no other. -/
theorem opcodeOf_iff_dispatch (m : Mnemonic) (md : Mode) (op : Byte) :
    opcodeOf m md = some op ↔ dispatch op = some (m, md) := by
  simp only [opcodeOf, dispatch, Option.map_eq_some_iff, Prod.mk.injEq]
  constructor
  · rintro ⟨r, h, rfl⟩
    obtain ⟨hm, h1, h2⟩ := findForm_some h
    exact ⟨r, findOpcode_of_mem hm, h1, h2⟩
  · rintro ⟨r, h, rfl, rfl⟩
    obtain ⟨hm, h1⟩ := findOpcode_some h
    exact ⟨r, findForm_of_mem hm, h1⟩

/-- Every instruction has an opcode: the default of `encode` is never used. -/
theorem opcodeOf_isSome (i : Instr) : (opcodeOf i.mnemonic i.operand.mode).isSome = true := by cases i <;> rfl

/-- The encoding of an instruction: an opcode bound to its mnemonic and mode, then its operand bytes. -/
theorem encode_eq (i : Instr) :
    ∃ op, encode i = op :: i.operand.bytes ∧ dispatch op = some (i.mnemonic, i.operand.mode) := by
  obtain ⟨op, h⟩ := Option.isSome_iff_exists.1 (opcodeOf_isSome i)
  exact ⟨op, by rw [encode, h]; rfl, (opcodeOf_iff_dispatch _ _ _).1 h⟩

/-- Every row of the dispatch table is the form of an instruction, whatever its operand bytes: the inconsistency of R256
never arises. -/
theorem ofForm_of_dispatch {op : Byte} {m : Mnemonic} {md : Mode} (h : dispatch op = some (m, md)) (b1 b2 : Byte) :
    (Instr.ofForm m (Operand.ofBytes md b1 b2)).isSome = true := by
  simp only [dispatch, Option.map_eq_some_iff, Prod.mk.injEq] at h
  obtain ⟨r, h, rfl, rfl⟩ := h
  have hm := (findOpcode_some h).1
  have hall : ∀ r ∈ dispatchTable, (Instr.ofForm r.mnemonic (Operand.ofBytes r.mode b1 b2)).isSome = true := by
    have h : dispatchTable.all (fun r => (Instr.ofForm r.mnemonic (Operand.ofBytes r.mode b1 b2)).isSome) = true := rfl
    exact List.all_eq_true.1 h
  exact hall r hm

/-- The mode of the operand a mode reads. -/
theorem Operand.mode_ofBytes (md : Mode) (b1 b2 : Byte) : (Operand.ofBytes md b1 b2).mode = md := by cases md <;> rfl

/-- A word is put together from its two bytes, low byte first. -/
theorem operandWord_extract (w : Word) : operandWord (w.extractLsb' 0 8) (w.extractLsb' 8 8) = w := by
  apply BitVec.eq_of_toNat_eq
  simp only [operandWord, BitVec.toNat_append, BitVec.extractLsb'_toNat]
  rw [← Nat.shiftLeft_add_eq_or_of_lt (by omega), Nat.shiftLeft_eq, Nat.shiftRight_eq_div_pow]
  have := w.isLt
  omega

/-- The two bytes of a word put together. -/
theorem extract_operandWord (b1 b2 : Byte) :
    (operandWord b1 b2).extractLsb' 0 8 = b1 ∧ (operandWord b1 b2).extractLsb' 8 8 = b2 := by
  have h1 := b1.isLt
  have h2 := b2.isLt
  constructor <;> apply BitVec.eq_of_toNat_eq <;>
    simp only [operandWord, BitVec.toNat_append, BitVec.extractLsb'_toNat] <;>
    rw [← Nat.shiftLeft_add_eq_or_of_lt h1, Nat.shiftLeft_eq, Nat.shiftRight_eq_div_pow] <;> omega

/-- The operand bytes of an operand are read back, whatever follows them. -/
theorem takeOperand_bytes (o : Operand) (rest : List Byte) : takeOperand o.mode (o.bytes ++ rest) = some (o, rest) := by
  cases o with
  | memory a =>
    cases a <;> first | rfl |
      (refine congrArg some (Prod.ext ?_ rfl)
       simp [Operand.ofBytes, operandWord_extract, Operand.mode, AddrForm.mode])
  | _ => rfl

/-- An operand is read only from its own bytes. -/
theorem takeOperand_some {md : Mode} {bs rest : List Byte} {o : Operand} (h : takeOperand md bs = some (o, rest)) :
    o.mode = md ∧ bs = o.bytes ++ rest := by
  unfold takeOperand at h
  split at h
  all_goals first | (cases h; done) | cases h
  all_goals refine ⟨Operand.mode_ofBytes _ _ _, ?_⟩
  all_goals rename_i hl; revert hl
  all_goals cases md <;> simp [Mode.length, Operand.ofBytes, Operand.bytes, AddrForm.bytes, extract_operandWord]

end Sys2Proof
end

