-- ==== Sys2Proof/Laws/Memory.lean ====
section
/-! SUPPORT. The laws of one store: a read after a write, and the canonical form kept by every operation. -/

namespace Sys2Proof.Machine

/-- A wider lower bound still holds. -/
theorem Memory.wfFrom_mono (m : Memory) {a b : Nat} (h : a ≤ b) (hm : m.wfFrom b = true) :
    m.wfFrom a = true := by
  cases m with
  | nil => rfl
  | cons c rest =>
    obtain ⟨k, v⟩ := c
    simp only [Memory.wfFrom, Bool.and_eq_true, decide_eq_true_eq] at hm ⊢
    exact ⟨⟨by omega, hm.1.2⟩, hm.2⟩

/-- Below the lower bound of a canonical list nothing is listed. -/
theorem Memory.read_below (m : Memory) {n a : Nat} (hm : m.wfFrom n = true) (h : a < n) :
    m.read a = Memory.unlisted := by
  induction m generalizing n with
  | nil => rfl
  | cons c rest ih =>
    obtain ⟨k, v⟩ := c
    simp only [Memory.wfFrom, Bool.and_eq_true, decide_eq_true_eq] at hm
    rw [Memory.read, if_neg (by omega)]
    exact ih hm.2 (by omega)

/-- `cell` in front of a canonical list whose bound lies above it reads back. -/
theorem Memory.read_cell (a : Nat) (v : Byte) (rest : Memory) (b : Nat)
    (h : rest.wfFrom (a + 1) = true) :
    (Memory.cell a v rest).read b = if b = a then v else rest.read b := by
  unfold Memory.cell
  split
  · rename_i hv
    split
    · rename_i hb
      rw [hb, Memory.read_below rest h (by omega), hv]
    · rfl
  · rfl

/-- `cell` keeps the canonical form. -/
theorem Memory.wfFrom_cell (a : Nat) (v : Byte) (rest : Memory) {n : Nat} (hn : n ≤ a)
    (h : rest.wfFrom (a + 1) = true) : (Memory.cell a v rest).wfFrom n = true := by
  unfold Memory.cell
  split
  · exact Memory.wfFrom_mono rest (by omega) h
  · rename_i hv
    simp [Memory.wfFrom, hn, hv, h]

/-- A write keeps the canonical form. -/
theorem Memory.wfFrom_write (m : Memory) (a : Nat) (v : Byte) {n : Nat} (hn : n ≤ a)
    (hm : m.wfFrom n = true) : (m.write a v).wfFrom n = true := by
  induction m generalizing n with
  | nil => exact Memory.wfFrom_cell a v [] hn rfl
  | cons c rest ih =>
    obtain ⟨k, u⟩ := c
    simp only [Memory.wfFrom, Bool.and_eq_true, decide_eq_true_eq] at hm
    unfold Memory.write
    split
    · refine Memory.wfFrom_cell a v _ hn ?_
      simp only [Memory.wfFrom, Bool.and_eq_true, decide_eq_true_eq]
      exact ⟨⟨by omega, hm.1.2⟩, hm.2⟩
    · split
      · rename_i h
        exact Memory.wfFrom_cell a v rest hn (h ▸ hm.2)
      · simp only [Memory.wfFrom, Bool.and_eq_true, decide_eq_true_eq]
        exact ⟨hm.1, ih (by omega) hm.2⟩

/-- `Memory.wf` is kept by a write. -/
theorem Memory.wf_write (m : Memory) (a : Nat) (v : Byte) (hm : m.wf = true) : (m.write a v).wf = true :=
  Memory.wfFrom_write m a v (Nat.zero_le a) hm

/-- On a canonical list: a read after a write gives the value written at its offset and the old value elsewhere. -/
theorem Memory.read_writeFrom (m : Memory) (a b : Nat) (v : Byte) {n : Nat} (hm : m.wfFrom n = true) :
    (m.write a v).read b = if b = a then v else m.read b := by
  induction m generalizing n with
  | nil =>
    rw [Memory.write, Memory.read_cell a v [] b rfl]
  | cons c rest ih =>
    obtain ⟨k, u⟩ := c
    simp only [Memory.wfFrom, Bool.and_eq_true, decide_eq_true_eq] at hm
    unfold Memory.write
    split
    · apply Memory.read_cell
      simp only [Memory.wfFrom, Bool.and_eq_true, decide_eq_true_eq]
      exact ⟨⟨by omega, hm.1.2⟩, hm.2⟩
    · split
      · rename_i h
        subst h
        rw [Memory.read_cell a v rest b hm.2]
        split
        · rfl
        · rename_i hb
          rw [Memory.read, if_neg hb]
      · rename_i h1 h2
        rw [Memory.read, ih hm.2]
        by_cases hb : b = k
        · rw [if_pos hb, if_neg (by omega), Memory.read, if_pos hb]
        · rw [if_neg hb]
          conv_rhs => rw [Memory.read, if_neg hb]

/-- A read after a write (canonical form). -/
theorem Memory.read_write (m : Memory) (a b : Nat) (v : Byte) (hm : m.wf = true) :
    (m.write a v).read b = if b = a then v else m.read b :=
  Memory.read_writeFrom m a b v hm

/-- A byte string laid out from `a` is canonical from `a`. -/
theorem Memory.wfFrom_image (bytes : List Byte) (a : Nat) : (Memory.image a bytes).wfFrom a = true := by
  induction bytes generalizing a with
  | nil => rfl
  | cons b rest ih => exact Memory.wfFrom_cell a b _ (Nat.le_refl a) (ih (a + 1))

/-- The bytes of a string laid out from `a`. -/
theorem Memory.read_image (bytes : List Byte) (a k : Nat) :
    (Memory.image a bytes).read (a + k) = bytes.getD k Memory.unlisted := by
  induction bytes generalizing a k with
  | nil => rfl
  | cons b rest ih =>
    rw [Memory.image, Memory.read_cell a b _ _ (Memory.wfFrom_image rest (a + 1))]
    cases k with
    | zero => simp
    | succ k =>
      rw [if_neg (by omega), show a + (k + 1) = (a + 1) + k by omega, ih]
      simp

/-- Leaving cells out keeps the canonical form. -/
theorem Memory.wfFrom_filter (p : Host.Cell → Bool) (m : Memory) {n : Nat} (h : m.wfFrom n = true) :
    Memory.wfFrom n (m.filter p) = true := by
  induction m generalizing n with
  | nil => rfl
  | cons c rest ih =>
    obtain ⟨k, v⟩ := c
    simp only [Memory.wfFrom, Bool.and_eq_true, decide_eq_true_eq] at h
    rw [List.filter_cons]
    split
    · simp only [Memory.wfFrom, Bool.and_eq_true, decide_eq_true_eq]
      exact ⟨h.1, ih h.2⟩
    · exact Memory.wfFrom_mono _ (by omega) (ih h.2)

/-- The cells at `n` and above are canonical from `n`. -/
theorem Memory.wfFrom_above (m : Memory) (n : Nat) {k : Nat} (h : m.wfFrom k = true) :
    (m.above n).wfFrom n = true := by
  induction m generalizing k with
  | nil => rfl
  | cons c rest ih =>
    obtain ⟨j, v⟩ := c
    simp only [Memory.wfFrom, Bool.and_eq_true, decide_eq_true_eq] at h
    rw [Memory.above, List.filter_cons]
    split
    · rename_i hj
      simp only [decide_eq_true_eq] at hj
      simp only [Memory.wfFrom, Bool.and_eq_true, decide_eq_true_eq]
      exact ⟨⟨hj, h.1.2⟩, Memory.wfFrom_filter _ rest h.2⟩
    · exact ih h.2

/-- The cells at `n` and above, read. -/
theorem Memory.read_above (m : Memory) (n b : Nat) :
    (m.above n).read b = if n ≤ b then m.read b else Memory.unlisted := by
  induction m with
  | nil => simp [Memory.above, Memory.read]
  | cons c rest ih =>
    obtain ⟨j, v⟩ := c
    rw [Memory.above, List.filter_cons]
    by_cases hj : n ≤ j
    · rw [if_pos (by simpa using hj), Memory.read]
      by_cases hb : b = j
      · rw [if_pos hb, if_pos (by omega), Memory.read, if_pos hb]
      · rw [if_neg hb]
        refine ih.trans ?_
        conv_rhs => rw [Memory.read, if_neg hb]
    · rw [if_neg (by simpa using hj)]
      refine ih.trans ?_
      split
      · rw [Memory.read, if_neg (by omega)]
      · rfl

/-- A string from `a`, then cells beyond its end: canonical, and read in two parts. -/
theorem Memory.wfFrom_image_append (bytes : List Byte) (a : Nat) (rest : Memory)
    (h : rest.wfFrom (a + bytes.length) = true) :
    Memory.wfFrom a (Memory.image a bytes ++ rest) = true := by
  induction bytes generalizing a with
  | nil => simpa [Memory.image] using h
  | cons b bs ih =>
    have hb := ih (a + 1) (by rw [show a + 1 + bs.length = a + (b :: bs).length by simp; omega]; exact h)
    unfold Memory.image Memory.cell
    split
    · exact Memory.wfFrom_mono _ (by omega) hb
    · rename_i hv
      simp only [List.cons_append, Memory.wfFrom, Bool.and_eq_true, decide_eq_true_eq]
      exact ⟨⟨Nat.le_refl a, hv⟩, hb⟩

/-- Reading a concatenation: the first part where it lists the offset, the second elsewhere. -/
theorem Memory.read_append (m rest : Memory) (b : Nat) (h : m.read b = Memory.unlisted)
    (hm : m.wfFrom 0 = true) : Memory.read (m ++ rest) b = rest.read b := by
  suffices ∀ n, m.wfFrom n = true → Memory.read (m ++ rest) b = rest.read b from this 0 hm
  induction m with
  | nil => intros; rfl
  | cons c r ih =>
    obtain ⟨k, v⟩ := c
    intro n hn
    simp only [Memory.wfFrom, Bool.and_eq_true, decide_eq_true_eq] at hn
    rw [Memory.read] at h
    rw [List.cons_append, Memory.read]
    by_cases hb : b = k
    · rw [if_pos hb] at h; exact absurd h hn.1.2
    · rw [if_neg hb] at h ⊢
      exact ih h (Memory.wfFrom_mono r (Nat.zero_le _) hn.2) (k + 1) hn.2

/-- Reading a concatenation below the second part's bound. -/
theorem Memory.read_append_left (m rest : Memory) (b n : Nat) (h : rest.wfFrom n = true) (hb : b < n) :
    Memory.read (m ++ rest) b = m.read b := by
  induction m with
  | nil => exact Memory.read_below rest h hb
  | cons c r ih =>
    obtain ⟨k, v⟩ := c
    rw [List.cons_append, Memory.read, Memory.read, ih]

/-- `Memory.load` keeps the canonical form. -/
theorem Memory.wf_load (m : Memory) (bytes : List Byte) (cap : Nat) (h : m.wf = true) :
    (m.load bytes cap).wf = true := by
  apply Memory.wfFrom_image_append
  rw [List.length_take, Nat.zero_add, Nat.min_comm]
  exact Memory.wfFrom_above m _ h

/-- `Memory.load`, read: the image's bytes up to the capacity, every other byte as before (R75). -/
theorem Memory.read_load (m : Memory) (bytes : List Byte) (cap k : Nat) (h : m.wf = true) :
    (m.load bytes cap).read k = if k < min bytes.length cap then bytes.getD k 0 else m.read k := by
  have hw := Memory.wfFrom_above m (min bytes.length cap) h
  have hi : (Memory.image 0 (bytes.take cap)).read k = (bytes.take cap).getD k Memory.unlisted := by
    simpa using Memory.read_image (bytes.take cap) 0 k
  unfold Memory.load
  split
  · rename_i hk
    rw [Memory.read_append_left _ _ _ _ hw hk, hi]
    simp only [List.getD_eq_getElem?_getD, List.getElem?_take]
    rw [if_pos (by omega)]
    rfl
  · rename_i hk
    rw [Memory.read_append _ _ _ _ (Memory.wfFrom_image _ 0), Memory.read_above, if_pos (by omega)]
    rw [hi, List.getD_eq_getElem?_getD, List.getElem?_eq_none (by rw [List.length_take]; omega)]
    rfl

end Sys2Proof.Machine
end

