-- ==== Sys2Proof/Laws/State.lean ====
section
/-! SUPPORT. Every field of `State` after every update of it: one lemma per field per update, true by `rfl`. -/

namespace Sys2Proof.Machine

@[simp] theorem State.setPc_pc (s : State) (v : Word) : (s.setPc v).pc = v := rfl
@[simp] theorem State.setPc_sp (s : State) (v : Word) : (s.setPc v).sp = s.sp := rfl
@[simp] theorem State.setPc_a (s : State) (v : Word) : (s.setPc v).a = s.a := rfl
@[simp] theorem State.setPc_x (s : State) (v : Word) : (s.setPc v).x = s.x := rfl
@[simp] theorem State.setPc_y (s : State) (v : Word) : (s.setPc v).y = s.y := rfl
@[simp] theorem State.setPc_flags (s : State) (v : Word) : (s.setPc v).flags = s.flags := rfl
@[simp] theorem State.setPc_privRam (s : State) (v : Word) : (s.setPc v).privRam = s.privRam := rfl
@[simp] theorem State.setPc_ram (s : State) (v : Word) : (s.setPc v).ram = s.ram := rfl
@[simp] theorem State.setPc_rom (s : State) (v : Word) : (s.setPc v).rom = s.rom := rfl
@[simp] theorem State.setPc_gpuOut (s : State) (v : Word) : (s.setPc v).gpuOut = s.gpuOut := rfl
@[simp] theorem State.setPc_gpuLog (s : State) (v : Word) : (s.setPc v).gpuLog = s.gpuLog := rfl
@[simp] theorem State.setPc_trace (s : State) (v : Word) : (s.setPc v).trace = s.trace := rfl
@[simp] theorem State.setPc_bus (s : State) (v : Word) : (s.setPc v).bus = s.bus := rfl
@[simp] theorem State.setPc_life (s : State) (v : Word) : (s.setPc v).life = s.life := rfl
@[simp] theorem State.setPc_units (s : State) (v : Word) : (s.setPc v).units = s.units := rfl
@[simp] theorem State.setPc_cfg (s : State) (v : Word) : (s.setPc v).cfg = s.cfg := rfl
@[simp] theorem State.setPc_host (s : State) (v : Word) : (s.setPc v).host = s.host := rfl

@[simp] theorem State.setSp_pc (s : State) (v : Byte) : (s.setSp v).pc = s.pc := rfl
@[simp] theorem State.setSp_sp (s : State) (v : Byte) : (s.setSp v).sp = v := rfl
@[simp] theorem State.setSp_a (s : State) (v : Byte) : (s.setSp v).a = s.a := rfl
@[simp] theorem State.setSp_x (s : State) (v : Byte) : (s.setSp v).x = s.x := rfl
@[simp] theorem State.setSp_y (s : State) (v : Byte) : (s.setSp v).y = s.y := rfl
@[simp] theorem State.setSp_flags (s : State) (v : Byte) : (s.setSp v).flags = s.flags := rfl
@[simp] theorem State.setSp_privRam (s : State) (v : Byte) : (s.setSp v).privRam = s.privRam := rfl
@[simp] theorem State.setSp_ram (s : State) (v : Byte) : (s.setSp v).ram = s.ram := rfl
@[simp] theorem State.setSp_rom (s : State) (v : Byte) : (s.setSp v).rom = s.rom := rfl
@[simp] theorem State.setSp_gpuOut (s : State) (v : Byte) : (s.setSp v).gpuOut = s.gpuOut := rfl
@[simp] theorem State.setSp_gpuLog (s : State) (v : Byte) : (s.setSp v).gpuLog = s.gpuLog := rfl
@[simp] theorem State.setSp_trace (s : State) (v : Byte) : (s.setSp v).trace = s.trace := rfl
@[simp] theorem State.setSp_bus (s : State) (v : Byte) : (s.setSp v).bus = s.bus := rfl
@[simp] theorem State.setSp_life (s : State) (v : Byte) : (s.setSp v).life = s.life := rfl
@[simp] theorem State.setSp_units (s : State) (v : Byte) : (s.setSp v).units = s.units := rfl
@[simp] theorem State.setSp_cfg (s : State) (v : Byte) : (s.setSp v).cfg = s.cfg := rfl
@[simp] theorem State.setSp_host (s : State) (v : Byte) : (s.setSp v).host = s.host := rfl

@[simp] theorem State.setA_pc (s : State) (v : Byte) : (s.setA v).pc = s.pc := rfl
@[simp] theorem State.setA_sp (s : State) (v : Byte) : (s.setA v).sp = s.sp := rfl
@[simp] theorem State.setA_a (s : State) (v : Byte) : (s.setA v).a = v := rfl
@[simp] theorem State.setA_x (s : State) (v : Byte) : (s.setA v).x = s.x := rfl
@[simp] theorem State.setA_y (s : State) (v : Byte) : (s.setA v).y = s.y := rfl
@[simp] theorem State.setA_flags (s : State) (v : Byte) : (s.setA v).flags = s.flags := rfl
@[simp] theorem State.setA_privRam (s : State) (v : Byte) : (s.setA v).privRam = s.privRam := rfl
@[simp] theorem State.setA_ram (s : State) (v : Byte) : (s.setA v).ram = s.ram := rfl
@[simp] theorem State.setA_rom (s : State) (v : Byte) : (s.setA v).rom = s.rom := rfl
@[simp] theorem State.setA_gpuOut (s : State) (v : Byte) : (s.setA v).gpuOut = s.gpuOut := rfl
@[simp] theorem State.setA_gpuLog (s : State) (v : Byte) : (s.setA v).gpuLog = s.gpuLog := rfl
@[simp] theorem State.setA_trace (s : State) (v : Byte) : (s.setA v).trace = s.trace := rfl
@[simp] theorem State.setA_bus (s : State) (v : Byte) : (s.setA v).bus = s.bus := rfl
@[simp] theorem State.setA_life (s : State) (v : Byte) : (s.setA v).life = s.life := rfl
@[simp] theorem State.setA_units (s : State) (v : Byte) : (s.setA v).units = s.units := rfl
@[simp] theorem State.setA_cfg (s : State) (v : Byte) : (s.setA v).cfg = s.cfg := rfl
@[simp] theorem State.setA_host (s : State) (v : Byte) : (s.setA v).host = s.host := rfl

@[simp] theorem State.setX_pc (s : State) (v : Byte) : (s.setX v).pc = s.pc := rfl
@[simp] theorem State.setX_sp (s : State) (v : Byte) : (s.setX v).sp = s.sp := rfl
@[simp] theorem State.setX_a (s : State) (v : Byte) : (s.setX v).a = s.a := rfl
@[simp] theorem State.setX_x (s : State) (v : Byte) : (s.setX v).x = v := rfl
@[simp] theorem State.setX_y (s : State) (v : Byte) : (s.setX v).y = s.y := rfl
@[simp] theorem State.setX_flags (s : State) (v : Byte) : (s.setX v).flags = s.flags := rfl
@[simp] theorem State.setX_privRam (s : State) (v : Byte) : (s.setX v).privRam = s.privRam := rfl
@[simp] theorem State.setX_ram (s : State) (v : Byte) : (s.setX v).ram = s.ram := rfl
@[simp] theorem State.setX_rom (s : State) (v : Byte) : (s.setX v).rom = s.rom := rfl
@[simp] theorem State.setX_gpuOut (s : State) (v : Byte) : (s.setX v).gpuOut = s.gpuOut := rfl
@[simp] theorem State.setX_gpuLog (s : State) (v : Byte) : (s.setX v).gpuLog = s.gpuLog := rfl
@[simp] theorem State.setX_trace (s : State) (v : Byte) : (s.setX v).trace = s.trace := rfl
@[simp] theorem State.setX_bus (s : State) (v : Byte) : (s.setX v).bus = s.bus := rfl
@[simp] theorem State.setX_life (s : State) (v : Byte) : (s.setX v).life = s.life := rfl
@[simp] theorem State.setX_units (s : State) (v : Byte) : (s.setX v).units = s.units := rfl
@[simp] theorem State.setX_cfg (s : State) (v : Byte) : (s.setX v).cfg = s.cfg := rfl
@[simp] theorem State.setX_host (s : State) (v : Byte) : (s.setX v).host = s.host := rfl

@[simp] theorem State.setY_pc (s : State) (v : Byte) : (s.setY v).pc = s.pc := rfl
@[simp] theorem State.setY_sp (s : State) (v : Byte) : (s.setY v).sp = s.sp := rfl
@[simp] theorem State.setY_a (s : State) (v : Byte) : (s.setY v).a = s.a := rfl
@[simp] theorem State.setY_x (s : State) (v : Byte) : (s.setY v).x = s.x := rfl
@[simp] theorem State.setY_y (s : State) (v : Byte) : (s.setY v).y = v := rfl
@[simp] theorem State.setY_flags (s : State) (v : Byte) : (s.setY v).flags = s.flags := rfl
@[simp] theorem State.setY_privRam (s : State) (v : Byte) : (s.setY v).privRam = s.privRam := rfl
@[simp] theorem State.setY_ram (s : State) (v : Byte) : (s.setY v).ram = s.ram := rfl
@[simp] theorem State.setY_rom (s : State) (v : Byte) : (s.setY v).rom = s.rom := rfl
@[simp] theorem State.setY_gpuOut (s : State) (v : Byte) : (s.setY v).gpuOut = s.gpuOut := rfl
@[simp] theorem State.setY_gpuLog (s : State) (v : Byte) : (s.setY v).gpuLog = s.gpuLog := rfl
@[simp] theorem State.setY_trace (s : State) (v : Byte) : (s.setY v).trace = s.trace := rfl
@[simp] theorem State.setY_bus (s : State) (v : Byte) : (s.setY v).bus = s.bus := rfl
@[simp] theorem State.setY_life (s : State) (v : Byte) : (s.setY v).life = s.life := rfl
@[simp] theorem State.setY_units (s : State) (v : Byte) : (s.setY v).units = s.units := rfl
@[simp] theorem State.setY_cfg (s : State) (v : Byte) : (s.setY v).cfg = s.cfg := rfl
@[simp] theorem State.setY_host (s : State) (v : Byte) : (s.setY v).host = s.host := rfl

@[simp] theorem State.setFlags_pc (s : State) (v : Flags) : (s.setFlags v).pc = s.pc := rfl
@[simp] theorem State.setFlags_sp (s : State) (v : Flags) : (s.setFlags v).sp = s.sp := rfl
@[simp] theorem State.setFlags_a (s : State) (v : Flags) : (s.setFlags v).a = s.a := rfl
@[simp] theorem State.setFlags_x (s : State) (v : Flags) : (s.setFlags v).x = s.x := rfl
@[simp] theorem State.setFlags_y (s : State) (v : Flags) : (s.setFlags v).y = s.y := rfl
@[simp] theorem State.setFlags_flags (s : State) (v : Flags) : (s.setFlags v).flags = v := rfl
@[simp] theorem State.setFlags_privRam (s : State) (v : Flags) : (s.setFlags v).privRam = s.privRam := rfl
@[simp] theorem State.setFlags_ram (s : State) (v : Flags) : (s.setFlags v).ram = s.ram := rfl
@[simp] theorem State.setFlags_rom (s : State) (v : Flags) : (s.setFlags v).rom = s.rom := rfl
@[simp] theorem State.setFlags_gpuOut (s : State) (v : Flags) : (s.setFlags v).gpuOut = s.gpuOut := rfl
@[simp] theorem State.setFlags_gpuLog (s : State) (v : Flags) : (s.setFlags v).gpuLog = s.gpuLog := rfl
@[simp] theorem State.setFlags_trace (s : State) (v : Flags) : (s.setFlags v).trace = s.trace := rfl
@[simp] theorem State.setFlags_bus (s : State) (v : Flags) : (s.setFlags v).bus = s.bus := rfl
@[simp] theorem State.setFlags_life (s : State) (v : Flags) : (s.setFlags v).life = s.life := rfl
@[simp] theorem State.setFlags_units (s : State) (v : Flags) : (s.setFlags v).units = s.units := rfl
@[simp] theorem State.setFlags_cfg (s : State) (v : Flags) : (s.setFlags v).cfg = s.cfg := rfl
@[simp] theorem State.setFlags_host (s : State) (v : Flags) : (s.setFlags v).host = s.host := rfl

@[simp] theorem State.setPrivRam_pc (s : State) (v : Memory) : (s.setPrivRam v).pc = s.pc := rfl
@[simp] theorem State.setPrivRam_sp (s : State) (v : Memory) : (s.setPrivRam v).sp = s.sp := rfl
@[simp] theorem State.setPrivRam_a (s : State) (v : Memory) : (s.setPrivRam v).a = s.a := rfl
@[simp] theorem State.setPrivRam_x (s : State) (v : Memory) : (s.setPrivRam v).x = s.x := rfl
@[simp] theorem State.setPrivRam_y (s : State) (v : Memory) : (s.setPrivRam v).y = s.y := rfl
@[simp] theorem State.setPrivRam_flags (s : State) (v : Memory) : (s.setPrivRam v).flags = s.flags := rfl
@[simp] theorem State.setPrivRam_privRam (s : State) (v : Memory) : (s.setPrivRam v).privRam = v := rfl
@[simp] theorem State.setPrivRam_ram (s : State) (v : Memory) : (s.setPrivRam v).ram = s.ram := rfl
@[simp] theorem State.setPrivRam_rom (s : State) (v : Memory) : (s.setPrivRam v).rom = s.rom := rfl
@[simp] theorem State.setPrivRam_gpuOut (s : State) (v : Memory) : (s.setPrivRam v).gpuOut = s.gpuOut := rfl
@[simp] theorem State.setPrivRam_gpuLog (s : State) (v : Memory) : (s.setPrivRam v).gpuLog = s.gpuLog := rfl
@[simp] theorem State.setPrivRam_trace (s : State) (v : Memory) : (s.setPrivRam v).trace = s.trace := rfl
@[simp] theorem State.setPrivRam_bus (s : State) (v : Memory) : (s.setPrivRam v).bus = s.bus := rfl
@[simp] theorem State.setPrivRam_life (s : State) (v : Memory) : (s.setPrivRam v).life = s.life := rfl
@[simp] theorem State.setPrivRam_units (s : State) (v : Memory) : (s.setPrivRam v).units = s.units := rfl
@[simp] theorem State.setPrivRam_cfg (s : State) (v : Memory) : (s.setPrivRam v).cfg = s.cfg := rfl
@[simp] theorem State.setPrivRam_host (s : State) (v : Memory) : (s.setPrivRam v).host = s.host := rfl

@[simp] theorem State.setRam_pc (s : State) (v : Memory) : (s.setRam v).pc = s.pc := rfl
@[simp] theorem State.setRam_sp (s : State) (v : Memory) : (s.setRam v).sp = s.sp := rfl
@[simp] theorem State.setRam_a (s : State) (v : Memory) : (s.setRam v).a = s.a := rfl
@[simp] theorem State.setRam_x (s : State) (v : Memory) : (s.setRam v).x = s.x := rfl
@[simp] theorem State.setRam_y (s : State) (v : Memory) : (s.setRam v).y = s.y := rfl
@[simp] theorem State.setRam_flags (s : State) (v : Memory) : (s.setRam v).flags = s.flags := rfl
@[simp] theorem State.setRam_privRam (s : State) (v : Memory) : (s.setRam v).privRam = s.privRam := rfl
@[simp] theorem State.setRam_ram (s : State) (v : Memory) : (s.setRam v).ram = v := rfl
@[simp] theorem State.setRam_rom (s : State) (v : Memory) : (s.setRam v).rom = s.rom := rfl
@[simp] theorem State.setRam_gpuOut (s : State) (v : Memory) : (s.setRam v).gpuOut = s.gpuOut := rfl
@[simp] theorem State.setRam_gpuLog (s : State) (v : Memory) : (s.setRam v).gpuLog = s.gpuLog := rfl
@[simp] theorem State.setRam_trace (s : State) (v : Memory) : (s.setRam v).trace = s.trace := rfl
@[simp] theorem State.setRam_bus (s : State) (v : Memory) : (s.setRam v).bus = s.bus := rfl
@[simp] theorem State.setRam_life (s : State) (v : Memory) : (s.setRam v).life = s.life := rfl
@[simp] theorem State.setRam_units (s : State) (v : Memory) : (s.setRam v).units = s.units := rfl
@[simp] theorem State.setRam_cfg (s : State) (v : Memory) : (s.setRam v).cfg = s.cfg := rfl
@[simp] theorem State.setRam_host (s : State) (v : Memory) : (s.setRam v).host = s.host := rfl

@[simp] theorem State.setRom_pc (s : State) (v : Memory) : (s.setRom v).pc = s.pc := rfl
@[simp] theorem State.setRom_sp (s : State) (v : Memory) : (s.setRom v).sp = s.sp := rfl
@[simp] theorem State.setRom_a (s : State) (v : Memory) : (s.setRom v).a = s.a := rfl
@[simp] theorem State.setRom_x (s : State) (v : Memory) : (s.setRom v).x = s.x := rfl
@[simp] theorem State.setRom_y (s : State) (v : Memory) : (s.setRom v).y = s.y := rfl
@[simp] theorem State.setRom_flags (s : State) (v : Memory) : (s.setRom v).flags = s.flags := rfl
@[simp] theorem State.setRom_privRam (s : State) (v : Memory) : (s.setRom v).privRam = s.privRam := rfl
@[simp] theorem State.setRom_ram (s : State) (v : Memory) : (s.setRom v).ram = s.ram := rfl
@[simp] theorem State.setRom_rom (s : State) (v : Memory) : (s.setRom v).rom = v := rfl
@[simp] theorem State.setRom_gpuOut (s : State) (v : Memory) : (s.setRom v).gpuOut = s.gpuOut := rfl
@[simp] theorem State.setRom_gpuLog (s : State) (v : Memory) : (s.setRom v).gpuLog = s.gpuLog := rfl
@[simp] theorem State.setRom_trace (s : State) (v : Memory) : (s.setRom v).trace = s.trace := rfl
@[simp] theorem State.setRom_bus (s : State) (v : Memory) : (s.setRom v).bus = s.bus := rfl
@[simp] theorem State.setRom_life (s : State) (v : Memory) : (s.setRom v).life = s.life := rfl
@[simp] theorem State.setRom_units (s : State) (v : Memory) : (s.setRom v).units = s.units := rfl
@[simp] theorem State.setRom_cfg (s : State) (v : Memory) : (s.setRom v).cfg = s.cfg := rfl
@[simp] theorem State.setRom_host (s : State) (v : Memory) : (s.setRom v).host = s.host := rfl

@[simp] theorem State.setGpuOut_pc (s : State) (v : List Byte) : (s.setGpuOut v).pc = s.pc := rfl
@[simp] theorem State.setGpuOut_sp (s : State) (v : List Byte) : (s.setGpuOut v).sp = s.sp := rfl
@[simp] theorem State.setGpuOut_a (s : State) (v : List Byte) : (s.setGpuOut v).a = s.a := rfl
@[simp] theorem State.setGpuOut_x (s : State) (v : List Byte) : (s.setGpuOut v).x = s.x := rfl
@[simp] theorem State.setGpuOut_y (s : State) (v : List Byte) : (s.setGpuOut v).y = s.y := rfl
@[simp] theorem State.setGpuOut_flags (s : State) (v : List Byte) : (s.setGpuOut v).flags = s.flags := rfl
@[simp] theorem State.setGpuOut_privRam (s : State) (v : List Byte) : (s.setGpuOut v).privRam = s.privRam := rfl
@[simp] theorem State.setGpuOut_ram (s : State) (v : List Byte) : (s.setGpuOut v).ram = s.ram := rfl
@[simp] theorem State.setGpuOut_rom (s : State) (v : List Byte) : (s.setGpuOut v).rom = s.rom := rfl
@[simp] theorem State.setGpuOut_gpuOut (s : State) (v : List Byte) : (s.setGpuOut v).gpuOut = v := rfl
@[simp] theorem State.setGpuOut_gpuLog (s : State) (v : List Byte) : (s.setGpuOut v).gpuLog = s.gpuLog := rfl
@[simp] theorem State.setGpuOut_trace (s : State) (v : List Byte) : (s.setGpuOut v).trace = s.trace := rfl
@[simp] theorem State.setGpuOut_bus (s : State) (v : List Byte) : (s.setGpuOut v).bus = s.bus := rfl
@[simp] theorem State.setGpuOut_life (s : State) (v : List Byte) : (s.setGpuOut v).life = s.life := rfl
@[simp] theorem State.setGpuOut_units (s : State) (v : List Byte) : (s.setGpuOut v).units = s.units := rfl
@[simp] theorem State.setGpuOut_cfg (s : State) (v : List Byte) : (s.setGpuOut v).cfg = s.cfg := rfl
@[simp] theorem State.setGpuOut_host (s : State) (v : List Byte) : (s.setGpuOut v).host = s.host := rfl

@[simp] theorem State.setGpuLog_pc (s : State) (v : List GpuNote) : (s.setGpuLog v).pc = s.pc := rfl
@[simp] theorem State.setGpuLog_sp (s : State) (v : List GpuNote) : (s.setGpuLog v).sp = s.sp := rfl
@[simp] theorem State.setGpuLog_a (s : State) (v : List GpuNote) : (s.setGpuLog v).a = s.a := rfl
@[simp] theorem State.setGpuLog_x (s : State) (v : List GpuNote) : (s.setGpuLog v).x = s.x := rfl
@[simp] theorem State.setGpuLog_y (s : State) (v : List GpuNote) : (s.setGpuLog v).y = s.y := rfl
@[simp] theorem State.setGpuLog_flags (s : State) (v : List GpuNote) : (s.setGpuLog v).flags = s.flags := rfl
@[simp] theorem State.setGpuLog_privRam (s : State) (v : List GpuNote) : (s.setGpuLog v).privRam = s.privRam := rfl
@[simp] theorem State.setGpuLog_ram (s : State) (v : List GpuNote) : (s.setGpuLog v).ram = s.ram := rfl
@[simp] theorem State.setGpuLog_rom (s : State) (v : List GpuNote) : (s.setGpuLog v).rom = s.rom := rfl
@[simp] theorem State.setGpuLog_gpuOut (s : State) (v : List GpuNote) : (s.setGpuLog v).gpuOut = s.gpuOut := rfl
@[simp] theorem State.setGpuLog_gpuLog (s : State) (v : List GpuNote) : (s.setGpuLog v).gpuLog = v := rfl
@[simp] theorem State.setGpuLog_trace (s : State) (v : List GpuNote) : (s.setGpuLog v).trace = s.trace := rfl
@[simp] theorem State.setGpuLog_bus (s : State) (v : List GpuNote) : (s.setGpuLog v).bus = s.bus := rfl
@[simp] theorem State.setGpuLog_life (s : State) (v : List GpuNote) : (s.setGpuLog v).life = s.life := rfl
@[simp] theorem State.setGpuLog_units (s : State) (v : List GpuNote) : (s.setGpuLog v).units = s.units := rfl
@[simp] theorem State.setGpuLog_cfg (s : State) (v : List GpuNote) : (s.setGpuLog v).cfg = s.cfg := rfl
@[simp] theorem State.setGpuLog_host (s : State) (v : List GpuNote) : (s.setGpuLog v).host = s.host := rfl

@[simp] theorem State.setTrace_pc (s : State) (v : List Event) : (s.setTrace v).pc = s.pc := rfl
@[simp] theorem State.setTrace_sp (s : State) (v : List Event) : (s.setTrace v).sp = s.sp := rfl
@[simp] theorem State.setTrace_a (s : State) (v : List Event) : (s.setTrace v).a = s.a := rfl
@[simp] theorem State.setTrace_x (s : State) (v : List Event) : (s.setTrace v).x = s.x := rfl
@[simp] theorem State.setTrace_y (s : State) (v : List Event) : (s.setTrace v).y = s.y := rfl
@[simp] theorem State.setTrace_flags (s : State) (v : List Event) : (s.setTrace v).flags = s.flags := rfl
@[simp] theorem State.setTrace_privRam (s : State) (v : List Event) : (s.setTrace v).privRam = s.privRam := rfl
@[simp] theorem State.setTrace_ram (s : State) (v : List Event) : (s.setTrace v).ram = s.ram := rfl
@[simp] theorem State.setTrace_rom (s : State) (v : List Event) : (s.setTrace v).rom = s.rom := rfl
@[simp] theorem State.setTrace_gpuOut (s : State) (v : List Event) : (s.setTrace v).gpuOut = s.gpuOut := rfl
@[simp] theorem State.setTrace_gpuLog (s : State) (v : List Event) : (s.setTrace v).gpuLog = s.gpuLog := rfl
@[simp] theorem State.setTrace_trace (s : State) (v : List Event) : (s.setTrace v).trace = v := rfl
@[simp] theorem State.setTrace_bus (s : State) (v : List Event) : (s.setTrace v).bus = s.bus := rfl
@[simp] theorem State.setTrace_life (s : State) (v : List Event) : (s.setTrace v).life = s.life := rfl
@[simp] theorem State.setTrace_units (s : State) (v : List Event) : (s.setTrace v).units = s.units := rfl
@[simp] theorem State.setTrace_cfg (s : State) (v : List Event) : (s.setTrace v).cfg = s.cfg := rfl
@[simp] theorem State.setTrace_host (s : State) (v : List Event) : (s.setTrace v).host = s.host := rfl

@[simp] theorem State.setBus_pc (s : State) (v : Bus) : (s.setBus v).pc = s.pc := rfl
@[simp] theorem State.setBus_sp (s : State) (v : Bus) : (s.setBus v).sp = s.sp := rfl
@[simp] theorem State.setBus_a (s : State) (v : Bus) : (s.setBus v).a = s.a := rfl
@[simp] theorem State.setBus_x (s : State) (v : Bus) : (s.setBus v).x = s.x := rfl
@[simp] theorem State.setBus_y (s : State) (v : Bus) : (s.setBus v).y = s.y := rfl
@[simp] theorem State.setBus_flags (s : State) (v : Bus) : (s.setBus v).flags = s.flags := rfl
@[simp] theorem State.setBus_privRam (s : State) (v : Bus) : (s.setBus v).privRam = s.privRam := rfl
@[simp] theorem State.setBus_ram (s : State) (v : Bus) : (s.setBus v).ram = s.ram := rfl
@[simp] theorem State.setBus_rom (s : State) (v : Bus) : (s.setBus v).rom = s.rom := rfl
@[simp] theorem State.setBus_gpuOut (s : State) (v : Bus) : (s.setBus v).gpuOut = s.gpuOut := rfl
@[simp] theorem State.setBus_gpuLog (s : State) (v : Bus) : (s.setBus v).gpuLog = s.gpuLog := rfl
@[simp] theorem State.setBus_trace (s : State) (v : Bus) : (s.setBus v).trace = s.trace := rfl
@[simp] theorem State.setBus_bus (s : State) (v : Bus) : (s.setBus v).bus = v := rfl
@[simp] theorem State.setBus_life (s : State) (v : Bus) : (s.setBus v).life = s.life := rfl
@[simp] theorem State.setBus_units (s : State) (v : Bus) : (s.setBus v).units = s.units := rfl
@[simp] theorem State.setBus_cfg (s : State) (v : Bus) : (s.setBus v).cfg = s.cfg := rfl
@[simp] theorem State.setBus_host (s : State) (v : Bus) : (s.setBus v).host = s.host := rfl

@[simp] theorem State.setLife_pc (s : State) (v : Life) : (s.setLife v).pc = s.pc := rfl
@[simp] theorem State.setLife_sp (s : State) (v : Life) : (s.setLife v).sp = s.sp := rfl
@[simp] theorem State.setLife_a (s : State) (v : Life) : (s.setLife v).a = s.a := rfl
@[simp] theorem State.setLife_x (s : State) (v : Life) : (s.setLife v).x = s.x := rfl
@[simp] theorem State.setLife_y (s : State) (v : Life) : (s.setLife v).y = s.y := rfl
@[simp] theorem State.setLife_flags (s : State) (v : Life) : (s.setLife v).flags = s.flags := rfl
@[simp] theorem State.setLife_privRam (s : State) (v : Life) : (s.setLife v).privRam = s.privRam := rfl
@[simp] theorem State.setLife_ram (s : State) (v : Life) : (s.setLife v).ram = s.ram := rfl
@[simp] theorem State.setLife_rom (s : State) (v : Life) : (s.setLife v).rom = s.rom := rfl
@[simp] theorem State.setLife_gpuOut (s : State) (v : Life) : (s.setLife v).gpuOut = s.gpuOut := rfl
@[simp] theorem State.setLife_gpuLog (s : State) (v : Life) : (s.setLife v).gpuLog = s.gpuLog := rfl
@[simp] theorem State.setLife_trace (s : State) (v : Life) : (s.setLife v).trace = s.trace := rfl
@[simp] theorem State.setLife_bus (s : State) (v : Life) : (s.setLife v).bus = s.bus := rfl
@[simp] theorem State.setLife_life (s : State) (v : Life) : (s.setLife v).life = v := rfl
@[simp] theorem State.setLife_units (s : State) (v : Life) : (s.setLife v).units = s.units := rfl
@[simp] theorem State.setLife_cfg (s : State) (v : Life) : (s.setLife v).cfg = s.cfg := rfl
@[simp] theorem State.setLife_host (s : State) (v : Life) : (s.setLife v).host = s.host := rfl

@[simp] theorem State.setUnits_pc (s : State) (v : Units) : (s.setUnits v).pc = s.pc := rfl
@[simp] theorem State.setUnits_sp (s : State) (v : Units) : (s.setUnits v).sp = s.sp := rfl
@[simp] theorem State.setUnits_a (s : State) (v : Units) : (s.setUnits v).a = s.a := rfl
@[simp] theorem State.setUnits_x (s : State) (v : Units) : (s.setUnits v).x = s.x := rfl
@[simp] theorem State.setUnits_y (s : State) (v : Units) : (s.setUnits v).y = s.y := rfl
@[simp] theorem State.setUnits_flags (s : State) (v : Units) : (s.setUnits v).flags = s.flags := rfl
@[simp] theorem State.setUnits_privRam (s : State) (v : Units) : (s.setUnits v).privRam = s.privRam := rfl
@[simp] theorem State.setUnits_ram (s : State) (v : Units) : (s.setUnits v).ram = s.ram := rfl
@[simp] theorem State.setUnits_rom (s : State) (v : Units) : (s.setUnits v).rom = s.rom := rfl
@[simp] theorem State.setUnits_gpuOut (s : State) (v : Units) : (s.setUnits v).gpuOut = s.gpuOut := rfl
@[simp] theorem State.setUnits_gpuLog (s : State) (v : Units) : (s.setUnits v).gpuLog = s.gpuLog := rfl
@[simp] theorem State.setUnits_trace (s : State) (v : Units) : (s.setUnits v).trace = s.trace := rfl
@[simp] theorem State.setUnits_bus (s : State) (v : Units) : (s.setUnits v).bus = s.bus := rfl
@[simp] theorem State.setUnits_life (s : State) (v : Units) : (s.setUnits v).life = s.life := rfl
@[simp] theorem State.setUnits_units (s : State) (v : Units) : (s.setUnits v).units = v := rfl
@[simp] theorem State.setUnits_cfg (s : State) (v : Units) : (s.setUnits v).cfg = s.cfg := rfl
@[simp] theorem State.setUnits_host (s : State) (v : Units) : (s.setUnits v).host = s.host := rfl

@[simp] theorem State.setHost_pc (s : State) (v : List HostCommand) : (s.setHost v).pc = s.pc := rfl
@[simp] theorem State.setHost_sp (s : State) (v : List HostCommand) : (s.setHost v).sp = s.sp := rfl
@[simp] theorem State.setHost_a (s : State) (v : List HostCommand) : (s.setHost v).a = s.a := rfl
@[simp] theorem State.setHost_x (s : State) (v : List HostCommand) : (s.setHost v).x = s.x := rfl
@[simp] theorem State.setHost_y (s : State) (v : List HostCommand) : (s.setHost v).y = s.y := rfl
@[simp] theorem State.setHost_flags (s : State) (v : List HostCommand) : (s.setHost v).flags = s.flags := rfl
@[simp] theorem State.setHost_privRam (s : State) (v : List HostCommand) : (s.setHost v).privRam = s.privRam := rfl
@[simp] theorem State.setHost_ram (s : State) (v : List HostCommand) : (s.setHost v).ram = s.ram := rfl
@[simp] theorem State.setHost_rom (s : State) (v : List HostCommand) : (s.setHost v).rom = s.rom := rfl
@[simp] theorem State.setHost_gpuOut (s : State) (v : List HostCommand) : (s.setHost v).gpuOut = s.gpuOut := rfl
@[simp] theorem State.setHost_gpuLog (s : State) (v : List HostCommand) : (s.setHost v).gpuLog = s.gpuLog := rfl
@[simp] theorem State.setHost_trace (s : State) (v : List HostCommand) : (s.setHost v).trace = s.trace := rfl
@[simp] theorem State.setHost_bus (s : State) (v : List HostCommand) : (s.setHost v).bus = s.bus := rfl
@[simp] theorem State.setHost_life (s : State) (v : List HostCommand) : (s.setHost v).life = s.life := rfl
@[simp] theorem State.setHost_units (s : State) (v : List HostCommand) : (s.setHost v).units = s.units := rfl
@[simp] theorem State.setHost_cfg (s : State) (v : List HostCommand) : (s.setHost v).cfg = s.cfg := rfl
@[simp] theorem State.setHost_host (s : State) (v : List HostCommand) : (s.setHost v).host = v := rfl

@[simp] theorem State.emit_pc (s : State) (e : Event) : (s.emit e).pc = s.pc := rfl
@[simp] theorem State.emit_sp (s : State) (e : Event) : (s.emit e).sp = s.sp := rfl
@[simp] theorem State.emit_a (s : State) (e : Event) : (s.emit e).a = s.a := rfl
@[simp] theorem State.emit_x (s : State) (e : Event) : (s.emit e).x = s.x := rfl
@[simp] theorem State.emit_y (s : State) (e : Event) : (s.emit e).y = s.y := rfl
@[simp] theorem State.emit_flags (s : State) (e : Event) : (s.emit e).flags = s.flags := rfl
@[simp] theorem State.emit_privRam (s : State) (e : Event) : (s.emit e).privRam = s.privRam := rfl
@[simp] theorem State.emit_ram (s : State) (e : Event) : (s.emit e).ram = s.ram := rfl
@[simp] theorem State.emit_rom (s : State) (e : Event) : (s.emit e).rom = s.rom := rfl
@[simp] theorem State.emit_gpuOut (s : State) (e : Event) : (s.emit e).gpuOut = s.gpuOut := rfl
@[simp] theorem State.emit_gpuLog (s : State) (e : Event) : (s.emit e).gpuLog = s.gpuLog := rfl
@[simp] theorem State.emit_trace (s : State) (e : Event) : (s.emit e).trace = e :: s.trace := rfl
@[simp] theorem State.emit_bus (s : State) (e : Event) : (s.emit e).bus = s.bus := rfl
@[simp] theorem State.emit_life (s : State) (e : Event) : (s.emit e).life = s.life := rfl
@[simp] theorem State.emit_units (s : State) (e : Event) : (s.emit e).units = s.units := rfl
@[simp] theorem State.emit_cfg (s : State) (e : Event) : (s.emit e).cfg = s.cfg := rfl
@[simp] theorem State.emit_host (s : State) (e : Event) : (s.emit e).host = s.host := rfl

@[simp] theorem State.emitChar_pc (s : State) (v : Byte) : (s.emitChar v).pc = s.pc := rfl
@[simp] theorem State.emitChar_sp (s : State) (v : Byte) : (s.emitChar v).sp = s.sp := rfl
@[simp] theorem State.emitChar_a (s : State) (v : Byte) : (s.emitChar v).a = s.a := rfl
@[simp] theorem State.emitChar_x (s : State) (v : Byte) : (s.emitChar v).x = s.x := rfl
@[simp] theorem State.emitChar_y (s : State) (v : Byte) : (s.emitChar v).y = s.y := rfl
@[simp] theorem State.emitChar_flags (s : State) (v : Byte) : (s.emitChar v).flags = s.flags := rfl
@[simp] theorem State.emitChar_privRam (s : State) (v : Byte) : (s.emitChar v).privRam = s.privRam := rfl
@[simp] theorem State.emitChar_ram (s : State) (v : Byte) : (s.emitChar v).ram = s.ram := rfl
@[simp] theorem State.emitChar_rom (s : State) (v : Byte) : (s.emitChar v).rom = s.rom := rfl
@[simp] theorem State.emitChar_gpuOut (s : State) (v : Byte) : (s.emitChar v).gpuOut = s.gpuOut ++ [v] := rfl
@[simp] theorem State.emitChar_gpuLog (s : State) (v : Byte) : (s.emitChar v).gpuLog = s.gpuLog := rfl
@[simp] theorem State.emitChar_trace (s : State) (v : Byte) : (s.emitChar v).trace = s.trace := rfl
@[simp] theorem State.emitChar_bus (s : State) (v : Byte) : (s.emitChar v).bus = s.bus := rfl
@[simp] theorem State.emitChar_life (s : State) (v : Byte) : (s.emitChar v).life = s.life := rfl
@[simp] theorem State.emitChar_units (s : State) (v : Byte) : (s.emitChar v).units = s.units := rfl
@[simp] theorem State.emitChar_cfg (s : State) (v : Byte) : (s.emitChar v).cfg = s.cfg := rfl
@[simp] theorem State.emitChar_host (s : State) (v : Byte) : (s.emitChar v).host = s.host := rfl

@[simp] theorem State.noteGpu_pc (s : State) (n : GpuNote) : (s.noteGpu n).pc = s.pc := rfl
@[simp] theorem State.noteGpu_sp (s : State) (n : GpuNote) : (s.noteGpu n).sp = s.sp := rfl
@[simp] theorem State.noteGpu_a (s : State) (n : GpuNote) : (s.noteGpu n).a = s.a := rfl
@[simp] theorem State.noteGpu_x (s : State) (n : GpuNote) : (s.noteGpu n).x = s.x := rfl
@[simp] theorem State.noteGpu_y (s : State) (n : GpuNote) : (s.noteGpu n).y = s.y := rfl
@[simp] theorem State.noteGpu_flags (s : State) (n : GpuNote) : (s.noteGpu n).flags = s.flags := rfl
@[simp] theorem State.noteGpu_privRam (s : State) (n : GpuNote) : (s.noteGpu n).privRam = s.privRam := rfl
@[simp] theorem State.noteGpu_ram (s : State) (n : GpuNote) : (s.noteGpu n).ram = s.ram := rfl
@[simp] theorem State.noteGpu_rom (s : State) (n : GpuNote) : (s.noteGpu n).rom = s.rom := rfl
@[simp] theorem State.noteGpu_gpuOut (s : State) (n : GpuNote) : (s.noteGpu n).gpuOut = s.gpuOut := rfl
@[simp] theorem State.noteGpu_gpuLog (s : State) (n : GpuNote) : (s.noteGpu n).gpuLog = n :: s.gpuLog := rfl
@[simp] theorem State.noteGpu_trace (s : State) (n : GpuNote) : (s.noteGpu n).trace = s.trace := rfl
@[simp] theorem State.noteGpu_bus (s : State) (n : GpuNote) : (s.noteGpu n).bus = s.bus := rfl
@[simp] theorem State.noteGpu_life (s : State) (n : GpuNote) : (s.noteGpu n).life = s.life := rfl
@[simp] theorem State.noteGpu_units (s : State) (n : GpuNote) : (s.noteGpu n).units = s.units := rfl
@[simp] theorem State.noteGpu_cfg (s : State) (n : GpuNote) : (s.noteGpu n).cfg = s.cfg := rfl
@[simp] theorem State.noteGpu_host (s : State) (n : GpuNote) : (s.noteGpu n).host = s.host := rfl

/-- Putting the bus back to the value it had changes nothing. -/
theorem State.setBus_self (s : State) : s.setBus s.bus = s := rfl

end Sys2Proof.Machine
end

