-- ==== Sys2Proof/Laws/Ops.lean ====
section
/-! SUPPORT. What the shared operations do. For each: the value and the state after it where it completes (`_next`, for
an operational system), and that it can give nothing else (`_inv`, for every state). -/

namespace Sys2Proof.Machine

@[simp] theorem andThen_next {α β : Type} (a : α) (k : α → Host.Outcome β Fault Refusal) :
    andThen (.next a) k = k a := rfl

@[simp] theorem andThen_fault {α β : Type} (f : Fault) (k : α → Host.Outcome β Fault Refusal) :
    andThen (.fault f) k = .fault f := rfl

@[simp] theorem andThen_refused {α β : Type} (f : Refusal) (k : α → Host.Outcome β Fault Refusal) :
    andThen (.refused f) k = .refused f := rfl

/-- A sequence completes only if both parts do. -/
theorem andThen_inv {α β : Type} {r : Host.Outcome α Fault Refusal} {k : α → Host.Outcome β Fault Refusal} {b : β}
    (h : andThen r k = .next b) : ∃ a, r = .next a ∧ k a = .next b := by
  cases r with
  | next a => exact ⟨a, rfl, h⟩
  | fault f => exact nomatch h
  | refused f => exact nomatch h

/-! ## Translation and bounds -/

/-- The entry a scan finds is an entry of the table and covers the address. -/
theorem scanMap_some {v : Word} {t : List Mapping} {e : Mapping} (h : scanMap v t = some e) :
    e ∈ t ∧ mappingCovers e v = true := by
  induction t with
  | nil => exact nomatch h
  | cons f rest ih =>
    rw [scanMap] at h
    split at h
    · rename_i hf
      cases h
      exact ⟨List.mem_cons_self, hf⟩
    · exact ⟨List.mem_cons_of_mem _ (ih h).1, (ih h).2⟩

/-- In a configuration whose windows fit their stores, every translated address lies inside its store (R78). -/
theorem translate_fits {c : SystemConfig} (hc : configFits c = true) {v : Word} {st : Store} {pa : PAddr}
    (h : translate c v = some (st, pa)) : pa.toNat < (capacity c st).toNat := by
  simp only [translate, Option.map_eq_some_iff, Prod.mk.injEq] at h
  obtain ⟨e, he, rfl, rfl⟩ := h
  obtain ⟨hm, hv⟩ := scanMap_some he
  simp only [configFits, Bool.and_eq_true, List.all_eq_true] at hc
  have hf := hc.1 e hm
  simp only [mappingFits, mappingCovers, mappingEnd, Bool.and_eq_true, decide_eq_true_eq] at hf hv
  obtain ⟨h1, h2⟩ := hv
  have h3 : v.toNat - e.virtStart.toNat < e.size.toNat := Nat.sub_lt_left_of_lt_add h1 (of_decide_eq_true h2)
  have hcap := (capacity c e.store).isLt
  rw [BitVec.toNat_add, BitVec.toNat_setWidth, BitVec.toNat_sub_of_le (by exact h1)]
  have := v.isLt
  rw [Nat.mod_eq_of_lt (a := v.toNat - e.virtStart.toNat) (by omega), Nat.mod_eq_of_lt (by omega)]
  omega

/-- `0x100 + SP` as a number. -/
theorem stackOffset_toNat (sp : Byte) : (stackOffset sp).toNat = 0x100 + sp.toNat := by
  have := sp.isLt
  rw [stackOffset, BitVec.toNat_add, BitVec.toNat_setWidth, show (0x100 : PAddr).toNat = 0x100 from rfl]
  omega

/-! ## Reads -/

/-- The state after a completed `MemRead(v, 1)`: its events, and the GPU's note when the GPU answered. -/
def State.afterRead (s : State) (v : Word) : State :=
  (s.setTrace (readEvents s.cfg v (s.peek v) ++ s.trace)).setGpuLog
    (match translate s.cfg v with
      | some (.gpu, pa) => .readAnswered0 pa :: s.gpuLog
      | _ => s.gpuLog)

/-- The state after the reads of a list, in order. -/
def State.afterReads (s : State) (l : List Word) : State := l.foldl State.afterRead s

@[simp] theorem State.afterReads_nil (s : State) : s.afterReads [] = s := rfl

theorem State.afterReads_cons (s : State) (v : Word) (l : List Word) :
    s.afterReads (v :: l) = (s.afterRead v).afterReads l := rfl

theorem State.afterReads_append (s : State) (l l' : List Word) :
    s.afterReads (l ++ l') = (s.afterReads l).afterReads l' := List.foldl_append

/-- A read changes nothing but the trace and the GPU's log. -/
theorem State.afterReads_eq (s : State) (l : List Word) :
    ∃ tr lg, s.afterReads l = (s.setTrace tr).setGpuLog lg := by
  induction l generalizing s with
  | nil => exact ⟨s.trace, s.gpuLog, rfl⟩
  | cons v l ih =>
    obtain ⟨tr, lg, h⟩ := ih (s.afterRead v)
    exact ⟨tr, lg, h⟩

@[simp] theorem State.afterReads_pc (s : State) (l : List Word) : (s.afterReads l).pc = s.pc := by
  obtain ⟨tr, lg, h⟩ := s.afterReads_eq l
  rw [h]; rfl

@[simp] theorem State.afterReads_sp (s : State) (l : List Word) : (s.afterReads l).sp = s.sp := by
  obtain ⟨tr, lg, h⟩ := s.afterReads_eq l
  rw [h]; rfl

@[simp] theorem State.afterReads_a (s : State) (l : List Word) : (s.afterReads l).a = s.a := by
  obtain ⟨tr, lg, h⟩ := s.afterReads_eq l
  rw [h]; rfl

@[simp] theorem State.afterReads_x (s : State) (l : List Word) : (s.afterReads l).x = s.x := by
  obtain ⟨tr, lg, h⟩ := s.afterReads_eq l
  rw [h]; rfl

@[simp] theorem State.afterReads_y (s : State) (l : List Word) : (s.afterReads l).y = s.y := by
  obtain ⟨tr, lg, h⟩ := s.afterReads_eq l
  rw [h]; rfl

@[simp] theorem State.afterReads_flags (s : State) (l : List Word) : (s.afterReads l).flags = s.flags := by
  obtain ⟨tr, lg, h⟩ := s.afterReads_eq l
  rw [h]; rfl

@[simp] theorem State.afterReads_privRam (s : State) (l : List Word) : (s.afterReads l).privRam = s.privRam := by
  obtain ⟨tr, lg, h⟩ := s.afterReads_eq l
  rw [h]; rfl

@[simp] theorem State.afterReads_ram (s : State) (l : List Word) : (s.afterReads l).ram = s.ram := by
  obtain ⟨tr, lg, h⟩ := s.afterReads_eq l
  rw [h]; rfl

@[simp] theorem State.afterReads_rom (s : State) (l : List Word) : (s.afterReads l).rom = s.rom := by
  obtain ⟨tr, lg, h⟩ := s.afterReads_eq l
  rw [h]; rfl

@[simp] theorem State.afterReads_gpuOut (s : State) (l : List Word) : (s.afterReads l).gpuOut = s.gpuOut := by
  obtain ⟨tr, lg, h⟩ := s.afterReads_eq l
  rw [h]; rfl

@[simp] theorem State.afterReads_bus (s : State) (l : List Word) : (s.afterReads l).bus = s.bus := by
  obtain ⟨tr, lg, h⟩ := s.afterReads_eq l
  rw [h]; rfl

@[simp] theorem State.afterReads_life (s : State) (l : List Word) : (s.afterReads l).life = s.life := by
  obtain ⟨tr, lg, h⟩ := s.afterReads_eq l
  rw [h]; rfl

@[simp] theorem State.afterReads_units (s : State) (l : List Word) : (s.afterReads l).units = s.units := by
  obtain ⟨tr, lg, h⟩ := s.afterReads_eq l
  rw [h]; rfl

@[simp] theorem State.afterReads_cfg (s : State) (l : List Word) : (s.afterReads l).cfg = s.cfg := by
  obtain ⟨tr, lg, h⟩ := s.afterReads_eq l
  rw [h]; rfl

@[simp] theorem State.afterReads_host (s : State) (l : List Word) : (s.afterReads l).host = s.host := by
  obtain ⟨tr, lg, h⟩ := s.afterReads_eq l
  rw [h]; rfl

/-- States with the same storage and configuration read alike. -/
theorem State.byteAt_congr {s t : State} (hp : t.privRam = s.privRam) (hr : t.ram = s.ram) (ho : t.rom = s.rom)
    (st : Store) (off : Nat) : t.byteAt st off = s.byteAt st off := by
  cases st <;> simp [State.byteAt, hp, hr, ho]

theorem State.peek_congr {s t : State} (hc : t.cfg = s.cfg) (hb : ∀ st off, t.byteAt st off = s.byteAt st off)
    (v : Word) : t.peek v = s.peek v := by
  simp only [State.peek, hc, hb]

@[simp] theorem State.byteAt_afterReads (s : State) (l : List Word) (st : Store) (off : Nat) :
    (s.afterReads l).byteAt st off = s.byteAt st off :=
  State.byteAt_congr (by simp) (by simp) (by simp) st off

@[simp] theorem State.peek_afterReads (s : State) (l : List Word) (v : Word) : (s.afterReads l).peek v = s.peek v :=
  State.peek_congr (by simp) (by simp) v

@[simp] theorem State.afterReads_operational (s : State) (l : List Word) :
    (s.afterReads l).Operational ↔ s.Operational := by
  simp [State.Operational]

theorem readsEvents_congr {s t : State} (hc : t.cfg = s.cfg) (hp : ∀ v, t.peek v = s.peek v) (l : List Word) :
    readsEvents t l = readsEvents s l := by
  induction l with
  | nil => rfl
  | cons v rest ih => rw [readsEvents, readsEvents, ih, hc, hp]

theorem State.afterReads_trace (s : State) (l : List Word) :
    (s.afterReads l).trace = readsEvents s l ++ s.trace := by
  induction l generalizing s with
  | nil => rfl
  | cons v rest ih =>
    rw [State.afterReads_cons, ih, readsEvents, List.append_assoc,
      readsEvents_congr (t := s.afterRead v) (s := s) rfl (fun w => rfl)]
    rfl

/-- `BusRead` with a running peripheral, inside its store, on an idle bus (R66). -/
theorem busRead_next {s : State} {p : Peripheral} {pa : PAddr} (hb : s.bus = .idle)
    (hu : unitLife s.units p = .running) (hs : s.inStore (storeOf p) pa = true) :
    busRead p pa s = .next (s.byteAt (storeOf p) pa.toNat,
      ((s.setTrace (.dataToCpu p (s.byteAt (storeOf p) pa.toNat) :: .addr p .read pa :: s.trace)).setGpuLog
        (match p with | .gpu => .readAnswered0 pa :: s.gpuLog | _ => s.gpuLog))) := by
  have hs' : ((s.emit (.addr p .read pa)).setBus (.awaitData p .read pa none)).inStore (storeOf p) pa = true := hs
  simp only [busRead, busAddress, hb, hu, ne_eq, not_true_eq_false, if_false, andThen_next, busData,
    State.setBus_bus, hs', if_true]
  obtain ⟨⟩ := s
  simp only at hb
  subst hb
  cases p <;> rfl

/-- `BusRead` completes only so. -/
theorem busRead_guard {s : State} {p : Peripheral} {pa : PAddr} {r : Byte × State} (h : busRead p pa s = .next r) :
    s.bus = .idle ∧ unitLife s.units p = .running ∧ s.inStore (storeOf p) pa = true := by
  obtain ⟨t, h1, h2⟩ := andThen_inv h
  simp only [busAddress] at h1
  split at h1
  · exact nomatch h1
  · split at h1
    · exact nomatch h1
    · rename_i hb hu
      cases h1
      simp only [busData, State.setBus_bus] at h2
      split at h2
      · rename_i hs
        exact ⟨by simpa using hb, by simpa using hu, hs⟩
      · exact nomatch h2

/-- `MemRead(v, 1)` in an operational system (R62). -/
theorem memRead_next {s : State} (h : s.Operational) (v : Word) :
    memRead v s = .next (s.peek v, s.afterRead v) := by
  obtain ⟨hb, hu, hc⟩ := h
  have hun : ∀ p, unitLife s.units p = .running := fun p => by rw [hu]; cases p <;> rfl
  unfold memRead State.afterRead State.peek readEvents
  split
  · rename_i pa ht
    have hin : s.inStore .privRam pa = true := by simpa [State.inStore] using translate_fits hc ht
    simp [ht, privRead, hin, State.byteAt]; rfl
  · rename_i pa ht
    rw [busRead_next hb (hun _) (decide_eq_true (translate_fits hc ht))]
    simp [ht, storeOf]
  · rename_i pa ht
    rw [busRead_next hb (hun _) (decide_eq_true (translate_fits hc ht))]
    simp [ht, storeOf]
  · rename_i pa ht
    rw [busRead_next hb (hun _) (decide_eq_true (translate_fits hc ht))]
    simp [ht, storeOf]
  · rename_i ht
    simp [ht]; rfl

/-- `MemRead(v, 1)` gives nothing else, in any state. -/
theorem memRead_inv {s : State} {v : Word} {r : Byte × State} (h : memRead v s = .next r) :
    r = (s.peek v, s.afterRead v) := by
  unfold memRead at h
  unfold State.afterRead State.peek readEvents
  split at h
  · rename_i pa ht
    unfold privRead at h
    split at h
    · cases h; simp [ht, State.byteAt]; rfl
    · exact nomatch h
  · rename_i pa ht
    obtain ⟨hb, hu, hs⟩ := busRead_guard h
    rw [busRead_next hb hu hs] at h
    cases h; simp [ht, storeOf]
  · rename_i pa ht
    obtain ⟨hb, hu, hs⟩ := busRead_guard h
    rw [busRead_next hb hu hs] at h
    cases h; simp [ht, storeOf]
  · rename_i pa ht
    obtain ⟨hb, hu, hs⟩ := busRead_guard h
    rw [busRead_next hb hu hs] at h
    cases h; simp [ht, storeOf]
  · rename_i ht
    cases h; simp [ht]; rfl

/-- `MemRead(v, 2)` in an operational system: low byte, then high byte (R64). -/
theorem memReadWord_next {s : State} (h : s.Operational) (v : Word) :
    memReadWord v s = .next (s.peekWord v, s.afterReads [v, v + 1]) := by
  have h2 : (s.afterReads [v]).Operational := by simpa using h
  unfold memReadWord
  rw [memRead_next h, andThen_next]
  change andThen (memRead (v + 1) (s.afterReads [v])) _ = _
  rw [memRead_next h2]
  rfl

theorem memReadWord_inv {s : State} {v : Word} {r : Word × State} (h : memReadWord v s = .next r) :
    r = (s.peekWord v, s.afterReads [v, v + 1]) := by
  obtain ⟨lo, h1, h⟩ := andThen_inv h
  obtain ⟨hi, h2, h⟩ := andThen_inv h
  cases memRead_inv h1
  cases memRead_inv h2
  cases h
  rfl

/-! ## Writes -/

/-- The state after a completed `MemWrite(v, 1, b)`. -/
def State.afterWrite (s : State) (v : Word) (b : Byte) : State :=
  let t := s.setTrace (writeEvents s.cfg v b ++ s.trace)
  match translate s.cfg v with
  | some (.privRam, pa) => t.setPrivRam (s.privRam.write pa.toNat b)
  | some (.ram, pa) => t.setRam (s.ram.write pa.toNat b)
  | some (.gpu, pa) => if pa = 0 then t.emitChar b else t.noteGpu (.writeIgnored pa b)
  | some (.rom, _) | none => t

@[simp] theorem State.afterWrite_pc (s : State) (v : Word) (b : Byte) : (s.afterWrite v b).pc = s.pc := by
  unfold State.afterWrite
  dsimp only
  split <;> (try split) <;> rfl

@[simp] theorem State.afterWrite_sp (s : State) (v : Word) (b : Byte) : (s.afterWrite v b).sp = s.sp := by
  unfold State.afterWrite
  dsimp only
  split <;> (try split) <;> rfl

@[simp] theorem State.afterWrite_a (s : State) (v : Word) (b : Byte) : (s.afterWrite v b).a = s.a := by
  unfold State.afterWrite
  dsimp only
  split <;> (try split) <;> rfl

@[simp] theorem State.afterWrite_x (s : State) (v : Word) (b : Byte) : (s.afterWrite v b).x = s.x := by
  unfold State.afterWrite
  dsimp only
  split <;> (try split) <;> rfl

@[simp] theorem State.afterWrite_y (s : State) (v : Word) (b : Byte) : (s.afterWrite v b).y = s.y := by
  unfold State.afterWrite
  dsimp only
  split <;> (try split) <;> rfl

@[simp] theorem State.afterWrite_flags (s : State) (v : Word) (b : Byte) : (s.afterWrite v b).flags = s.flags := by
  unfold State.afterWrite
  dsimp only
  split <;> (try split) <;> rfl

@[simp] theorem State.afterWrite_rom (s : State) (v : Word) (b : Byte) : (s.afterWrite v b).rom = s.rom := by
  unfold State.afterWrite
  dsimp only
  split <;> (try split) <;> rfl

@[simp] theorem State.afterWrite_bus (s : State) (v : Word) (b : Byte) : (s.afterWrite v b).bus = s.bus := by
  unfold State.afterWrite
  dsimp only
  split <;> (try split) <;> rfl

@[simp] theorem State.afterWrite_life (s : State) (v : Word) (b : Byte) : (s.afterWrite v b).life = s.life := by
  unfold State.afterWrite
  dsimp only
  split <;> (try split) <;> rfl

@[simp] theorem State.afterWrite_units (s : State) (v : Word) (b : Byte) : (s.afterWrite v b).units = s.units := by
  unfold State.afterWrite
  dsimp only
  split <;> (try split) <;> rfl

@[simp] theorem State.afterWrite_cfg (s : State) (v : Word) (b : Byte) : (s.afterWrite v b).cfg = s.cfg := by
  unfold State.afterWrite
  dsimp only
  split <;> (try split) <;> rfl

@[simp] theorem State.afterWrite_host (s : State) (v : Word) (b : Byte) : (s.afterWrite v b).host = s.host := by
  unfold State.afterWrite
  dsimp only
  split <;> (try split) <;> rfl

theorem State.afterWrite_trace (s : State) (v : Word) (b : Byte) :
    (s.afterWrite v b).trace = writeEvents s.cfg v b ++ s.trace := by
  unfold State.afterWrite
  dsimp only
  split <;> (try split) <;> rfl

theorem State.afterWrite_gpuOut (s : State) (v : Word) (b : Byte) :
    (s.afterWrite v b).gpuOut = s.gpuOut ++ emittedChars s.cfg v b := by
  unfold State.afterWrite emittedChars
  dsimp only
  split
  · rename_i ht; simp [ht]
  · rename_i ht; simp [ht]
  · rename_i pa ht
    simp only [ht]
    split
    · rfl
    · exact (List.append_nil _).symm
  · rename_i ht; simp [ht]
  · rename_i ht; simp [ht]

@[simp] theorem State.afterWrite_operational (s : State) (v : Word) (b : Byte) :
    (s.afterWrite v b).Operational ↔ s.Operational := by
  simp [State.Operational]

/-- `BusWrite` with a running peripheral, inside its store, on an idle bus (R67). -/
theorem busWrite_next {s : State} {p : Peripheral} {pa : PAddr} (b : Byte) (hb : s.bus = .idle)
    (hu : unitLife s.units p = .running) (hs : s.inStore (storeOf p) pa = true) :
    busWrite p pa b s =
      .next ((s.setTrace (.dataFromCpu p b :: .addr p .write pa :: s.trace)).peripheralTakes p pa b) := by
  have hs' : ((s.emit (.addr p .write pa)).setBus (.awaitData p .write pa (some b))).inStore (storeOf p) pa = true := hs
  simp only [busWrite, busAddress, hb, hu, ne_eq, not_true_eq_false, if_false, andThen_next, busData,
    State.setBus_bus, hs', if_true]
  obtain ⟨⟩ := s
  simp only at hb
  subst hb
  cases p
  · rfl
  · rfl
  · simp only [State.peripheralTakes]
    split <;> rfl

theorem busWrite_guard {s : State} {p : Peripheral} {pa : PAddr} {b : Byte} {t : State}
    (h : busWrite p pa b s = .next t) :
    s.bus = .idle ∧ unitLife s.units p = .running ∧ s.inStore (storeOf p) pa = true := by
  obtain ⟨u, h1, h2⟩ := andThen_inv h
  obtain ⟨r, h2, -⟩ := andThen_inv h2
  simp only [busAddress] at h1
  split at h1
  · exact nomatch h1
  · split at h1
    · exact nomatch h1
    · rename_i hb hu
      cases h1
      simp only [busData, State.setBus_bus] at h2
      split at h2
      · rename_i hs
        exact ⟨by simpa using hb, by simpa using hu, hs⟩
      · exact nomatch h2

/-- `MemWrite(v, 1, b)` in an operational system (R63). -/
theorem memWrite_next {s : State} (h : s.Operational) (v : Word) (b : Byte) :
    memWrite v b s = .next (s.afterWrite v b) := by
  obtain ⟨hb, hu, hc⟩ := h
  have hun : ∀ p, unitLife s.units p = .running := fun p => by rw [hu]; cases p <;> rfl
  unfold memWrite State.afterWrite writeEvents
  split
  · rename_i pa ht
    have hin : s.inStore .privRam pa = true := by simpa [State.inStore] using translate_fits hc ht
    simp [ht, privWrite, hin]; rfl
  · rename_i pa ht
    rw [busWrite_next b hb (hun _) (decide_eq_true (translate_fits hc ht))]
    simp [ht, State.peripheralTakes]
  · rename_i pa ht
    rw [busWrite_next b hb (hun _) (decide_eq_true (translate_fits hc ht))]
    simp [ht, State.peripheralTakes]
  · rename_i ht
    simp [ht]; rfl
  · rename_i ht
    simp [ht]; rfl

/-- `MemWrite(v, 1, b)` gives nothing else, in any state. -/
theorem memWrite_inv {s : State} {v : Word} {b : Byte} {t : State} (h : memWrite v b s = .next t) :
    t = s.afterWrite v b := by
  unfold memWrite at h
  unfold State.afterWrite writeEvents
  split at h
  · rename_i pa ht
    unfold privWrite at h
    split at h
    · cases h; simp [ht]; rfl
    · exact nomatch h
  · rename_i pa ht
    obtain ⟨hb, hu, hs⟩ := busWrite_guard h
    rw [busWrite_next b hb hu hs] at h
    cases h; simp [ht, State.peripheralTakes]
  · rename_i pa ht
    obtain ⟨hb, hu, hs⟩ := busWrite_guard h
    rw [busWrite_next b hb hu hs] at h
    cases h; simp [ht, State.peripheralTakes]
  · rename_i ht
    cases h; simp [ht]; rfl
  · rename_i ht
    cases h; simp [ht]; rfl

/-- A completed byte write changes the one cell behind the address, in canonical storage (R60). -/
theorem State.byteAt_afterWrite {s : State} (hi : s.Inv) (v : Word) (b : Byte) (st : Store) (off : Nat) :
    (s.afterWrite v b).byteAt st off = if writtenCell s.cfg v = some (st, off) then b else s.byteAt st off := by
  obtain ⟨hp, hr, -, -⟩ := hi
  unfold State.afterWrite writtenCell
  dsimp only
  split
  · rename_i pa ht
    try simp only [ht]
    cases st <;> simp [State.byteAt, Memory.read_write _ _ _ _ hp, eq_comm]
  · rename_i pa ht
    try simp only [ht]
    cases st <;> simp [State.byteAt, Memory.read_write _ _ _ _ hr, eq_comm]
  · rename_i pa ht
    try simp only [ht]
    split <;> cases st <;> simp [State.byteAt]
  · rename_i ht
    try simp only [ht]
    cases st <;> simp [State.byteAt]
  · rename_i ht
    try simp only [ht]
    cases st <;> simp [State.byteAt]

/-- A change of one cell, read by virtual address: `StoresCell` from its first half. -/
theorem storesCell_of {s t : State} {cell : Option (Store × Nat)} {d : Byte} (hc : t.cfg = s.cfg)
    (hb : ∀ st off, t.byteAt st off = if cell = some (st, off) then d else s.byteAt st off) : StoresCell s t cell d := by
  refine ⟨hb, fun v hv => ?_⟩
  unfold State.peek
  rw [hc]
  unfold cellOf at hv
  split
  · rename_i st pa ht
    rw [hb, if_neg]
    rintro rfl
    rcases hv with h | h
    · exact nomatch h
    · exact h (by rw [ht]; rfl)
  · rfl

/-- A completed byte write, as statements say it. -/
theorem storesByte_afterWrite {s : State} (hi : s.Inv) (v : Word) (b : Byte) : StoresByte s (s.afterWrite v b) v b :=
  ⟨storesCell_of (by simp) (State.byteAt_afterWrite hi v b), State.afterWrite_gpuOut s v b⟩

/-- A change outside storage and configuration is none a reader sees. -/
theorem sameStorage_of {s t : State} (hc : t.cfg = s.cfg) (hp : t.privRam = s.privRam) (hr : t.ram = s.ram)
    (ho : t.rom = s.rom) (hg : t.gpuOut = s.gpuOut) : SameStorage s t :=
  ⟨State.peek_congr hc (State.byteAt_congr hp hr ho), State.byteAt_congr hp hr ho, hg⟩

/-- A completed byte write after reads, against the state before them. -/
theorem storesByte_reads_write {s : State} (hi : s.Inv) (l : List Word) (v : Word) (b : Byte) :
    StoresByte s ((s.afterReads l).afterWrite v b) v b := by
  have h : StoresByte (s.afterReads l) ((s.afterReads l).afterWrite v b) v b :=
    storesByte_afterWrite (by simpa [State.Inv] using hi) v b
  obtain ⟨⟨h1, h2⟩, h3⟩ := h
  simp only [State.afterReads_cfg, State.byteAt_afterReads, State.peek_afterReads, State.afterReads_gpuOut] at h1 h2 h3
  exact ⟨⟨h1, h2⟩, h3⟩

/-- A byte write keeps the invariant. -/
theorem State.inv_afterWrite {s : State} (hi : s.Inv) (v : Word) (b : Byte) : (s.afterWrite v b).Inv := by
  obtain ⟨hp, hr, ho, hb⟩ := hi
  refine ⟨?_, ?_, by simpa using ho, by simpa using hb⟩ <;>
  · unfold State.afterWrite
    dsimp only
    split <;> (try split) <;> simp [hp, hr, Memory.wf_write]

theorem State.inv_afterReads {s : State} (l : List Word) : (s.afterReads l).Inv ↔ s.Inv := by
  simp [State.Inv]

/-! ## The stack -/

/-- The state after a completed push. -/
def State.afterPush (s : State) (v : Byte) : State :=
  (s.setPrivRam (s.privRam.write (0x100 + s.sp.toNat) v)).setSp (s.sp - 1)

/-- The byte a completed pull gives. -/
def State.pulled (s : State) : Byte := s.privRam.read (0x100 + (s.sp + 1).toNat)

theorem State.inStore_stack {s : State} (h : s.Operational) (sp : Byte) : s.inStore .privRam (stackOffset sp) = true := by
  have hc := h.2.2
  simp only [configFits, Bool.and_eq_true, decide_eq_true_eq] at hc
  have := sp.isLt
  simp only [State.inStore, capacity, stackOffset_toNat, decide_eq_true_eq]
  omega

/-- `StackPush(v)` (R200). -/
theorem stackPush_next {s : State} (h : s.Operational) (v : Byte) : stackPush v s = .next (s.afterPush v) := by
  simp only [stackPush, privWrite, State.inStore_stack h, if_true, andThen_next, stackOffset_toNat]
  rfl

theorem stackPush_inv {s t : State} {v : Byte} (h : stackPush v s = .next t) : t = s.afterPush v := by
  obtain ⟨u, h1, h2⟩ := andThen_inv h
  unfold privWrite at h1
  split at h1
  · cases h1; cases h2; rw [stackOffset_toNat]; rfl
  · exact nomatch h1

/-- `StackPull()` (R201). -/
theorem stackPull_next {s : State} (h : s.Operational) : stackPull s = .next (s.pulled, s.setSp (s.sp + 1)) := by
  have h' : (s.setSp (s.sp + 1)).Operational := h
  simp only [stackPull, privRead, State.inStore_stack h', if_true, stackOffset_toNat]
  rfl

theorem stackPull_inv {s : State} {r : Byte × State} (h : stackPull s = .next r) :
    r = (s.pulled, s.setSp (s.sp + 1)) := by
  unfold stackPull privRead at h
  dsimp only at h
  split at h
  · cases h; rw [stackOffset_toNat]; rfl
  · exact nomatch h

@[simp] theorem State.afterPush_operational (s : State) (v : Byte) : (s.afterPush v).Operational ↔ s.Operational :=
  Iff.rfl

/-- `PushWord(w)` (R202). -/
theorem pushWord_next {s : State} (h : s.Operational) (w : Word) :
    pushWord w s = .next ((s.afterPush (hiByte w)).afterPush (loByte w)) := by
  rw [pushWord, stackPush_next h, andThen_next, stackPush_next ((State.afterPush_operational _ _).2 h)]

theorem pushWord_inv {s t : State} {w : Word} (h : pushWord w s = .next t) :
    t = (s.afterPush (hiByte w)).afterPush (loByte w) := by
  obtain ⟨u, h1, h2⟩ := andThen_inv h
  cases stackPush_inv h1
  exact stackPush_inv h2

/-- The word a completed `PullWord()` gives. -/
def State.pulledWord (s : State) : Word := pair (s.setSp (s.sp + 1)).pulled s.pulled

/-- `PullWord()` (R203). -/
theorem pullWord_next {s : State} (h : s.Operational) : pullWord s = .next (s.pulledWord, s.setSp (s.sp + 2)) := by
  have h' : (s.setSp (s.sp + 1)).Operational := h
  rw [pullWord, stackPull_next h, andThen_next, stackPull_next h', andThen_next]
  congr 2
  rw [State.setSp_sp, BitVec.add_assoc]
  rfl

theorem pullWord_inv {s : State} {r : Word × State} (h : pullWord s = .next r) :
    r = (s.pulledWord, s.setSp (s.sp + 2)) := by
  obtain ⟨lo, h1, h⟩ := andThen_inv h
  obtain ⟨hi, h2, h⟩ := andThen_inv h
  cases stackPull_inv h1
  cases stackPull_inv h2
  cases h
  congr 1
  rw [State.setSp_sp, BitVec.add_assoc]
  rfl

theorem State.inv_afterPush {s : State} (hi : s.Inv) (v : Byte) : (s.afterPush v).Inv :=
  ⟨Memory.wf_write _ _ _ hi.1, hi.2⟩

/-- A completed push changes the one cell `SP` designates. -/
theorem storesCell_afterPush {s : State} (hi : s.Inv) (v : Byte) : StoresCell s (s.afterPush v) (stackCell s.sp) v := by
  refine storesCell_of rfl fun st off => ?_
  cases st <;> simp [State.byteAt, State.afterPush, stackCell, Memory.read_write _ _ _ _ hi.1, eq_comm]

end Sys2Proof.Machine
end

