-- ==== Sys2Proof/Laws/Operands.lean ====
section
/-! SUPPORT. What the operand forms and the instruction shapes do: for each, the state after it where it completes
(`_next`, for an operational system), and that it can give nothing else (`_inv`, for every state). -/

namespace Sys2Proof.Machine

/-- The address computations read the same after reads. -/
theorem State.zpWord_afterReads (s : State) (l : List Word) (zp : Byte) : (s.afterReads l).zpWord zp = s.zpWord zp := by
  simp [State.zpWord]

theorem zpPointer_next {s : State} (h : s.Operational) (zp : Byte) :
    zpPointer zp s = .next (s.zpWord zp, s.afterReads [zext zp, zpNext s.cfg.zpPtrWrap zp]) := by
  have h2 : (s.afterReads [zext zp]).Operational := by simpa using h
  unfold zpPointer
  rw [memRead_next h, andThen_next]
  change andThen (memRead (zpNext s.cfg.zpPtrWrap zp) (s.afterReads [zext zp])) _ = _
  rw [memRead_next h2]
  rfl

theorem zpPointer_inv {s : State} {zp : Byte} {r : Word × State} (h : zpPointer zp s = .next r) :
    r = (s.zpWord zp, s.afterReads [zext zp, zpNext s.cfg.zpPtrWrap zp]) := by
  obtain ⟨lo, h1, h⟩ := andThen_inv h
  obtain ⟨hi, h2, h⟩ := andThen_inv h
  cases memRead_inv h1
  cases memRead_inv h2
  cases h
  rfl

/-- The effective address in an operational system: the address of R124 to R132, after the pointer's reads. -/
theorem effectiveAddress_next {s : State} (h : s.Operational) (a : AddrForm) :
    effectiveAddress a s = .next (s.address a, s.afterReads (s.pointerReads a)) := by
  cases a with
  | indirect w => exact memReadWord_next h w
  | indirectX b1 => exact zpPointer_next h _
  | indirectY b1 =>
    simp only [effectiveAddress, zpPointer_next h, andThen_next, State.afterReads_y]
    rfl
  | _ => rfl

theorem effectiveAddress_inv {s : State} {a : AddrForm} {r : Word × State} (h : effectiveAddress a s = .next r) :
    r = (s.address a, s.afterReads (s.pointerReads a)) := by
  cases a with
  | indirect w => exact memReadWord_inv h
  | indirectX b1 => exact zpPointer_inv h
  | indirectY b1 =>
    obtain ⟨p, h1, h⟩ := andThen_inv h
    cases zpPointer_inv h1
    cases h
    simp only [State.afterReads_y]
    rfl
  | _ => cases h; rfl

/-- `LoadOperand` (R135). -/
theorem loadOperand_next {s : State} (h : s.Operational) (src : Source) :
    loadOperand src s = .next (s.operandValue src, s.afterReads (s.sourceReads src)) := by
  cases src with
  | immediate m => rfl
  | memory a =>
    have h2 : (s.afterReads (s.pointerReads a)).Operational := by simpa using h
    simp only [loadOperand, effectiveAddress_next h, andThen_next, memRead_next h2, State.peek_afterReads,
      State.operandValue, State.sourceReads, State.afterReads_append]
    rfl

theorem loadOperand_inv {s : State} {src : Source} {r : Byte × State} (h : loadOperand src s = .next r) :
    r = (s.operandValue src, s.afterReads (s.sourceReads src)) := by
  cases src with
  | immediate m => cases h; rfl
  | memory a =>
    obtain ⟨ea, h1, h⟩ := andThen_inv h
    cases effectiveAddress_inv h1
    cases memRead_inv h
    simp only [State.peek_afterReads, State.operandValue, State.sourceReads, State.afterReads_append]
    rfl

/-- The state after a completed `StoreOperand`. -/
def State.afterStore (s : State) (a : AddrForm) (v : Byte) : State :=
  (s.afterReads (s.pointerReads a)).afterWrite (s.address a) v

theorem storeOperand_next {s : State} (h : s.Operational) (a : AddrForm) (v : Byte) :
    storeOperand a v s = .next (s.afterStore a v) := by
  have h2 : (s.afterReads (s.pointerReads a)).Operational := by simpa using h
  simp only [storeOperand, effectiveAddress_next h, andThen_next, memWrite_next h2]
  rfl

theorem storeOperand_inv {s t : State} {a : AddrForm} {v : Byte} (h : storeOperand a v s = .next t) :
    t = s.afterStore a v := by
  obtain ⟨ea, h1, h⟩ := andThen_inv h
  cases effectiveAddress_inv h1
  exact memWrite_inv h

/-- The state after a completed `ModifyOperand`. -/
def State.afterModify (s : State) (t : Target) (f : Byte → Flags → Byte × Flags) : State :=
  match t with
  | .accumulator => (s.setA (f s.a s.flags).1).setFlags (f s.a s.flags).2
  | .memory a =>
    ((s.afterReads (s.sourceReads (.memory a))).afterWrite (s.address a) (f (s.peek (s.address a)) s.flags).1).setFlags
      (f (s.peek (s.address a)) s.flags).2

theorem modifyOperand_next {s : State} (h : s.Operational) (t : Target) (f : Byte → Flags → Byte × Flags) :
    modifyOperand t f s = .next (s.afterModify t f) := by
  cases t with
  | accumulator => rfl
  | memory a =>
    have h2 : (s.afterReads (s.pointerReads a)).Operational := by simpa using h
    have h3 : (s.afterReads (s.sourceReads (.memory a))).Operational := by simpa using h
    have hr : (s.afterReads (s.pointerReads a)).afterRead (s.address a) = s.afterReads (s.sourceReads (.memory a)) := by
      rw [State.sourceReads, State.afterReads_append]; rfl
    simp only [modifyOperand, effectiveAddress_next h, andThen_next, memRead_next h2, State.peek_afterReads, hr,
      State.afterReads_flags, memWrite_next h3, State.afterModify]

theorem modifyOperand_inv {s u : State} {t : Target} {f : Byte → Flags → Byte × Flags}
    (h : modifyOperand t f s = .next u) : u = s.afterModify t f := by
  cases t with
  | accumulator => cases h; rfl
  | memory a =>
    have hr : (s.afterReads (s.pointerReads a)).afterRead (s.address a) = s.afterReads (s.sourceReads (.memory a)) := by
      rw [State.sourceReads, State.afterReads_append]; rfl
    obtain ⟨ea, h1, h⟩ := andThen_inv h
    obtain ⟨v, h2, h⟩ := andThen_inv h
    obtain ⟨w, h3, h⟩ := andThen_inv h
    cases effectiveAddress_inv h1
    cases memRead_inv h2
    cases memWrite_inv h3
    cases h
    simp only [State.peek_afterReads, hr, State.afterReads_flags, State.afterModify]

/-! ## The shapes of the instruction families -/

theorem loadThen_next {s : State} (h : s.Operational) (src : Source) (k : Byte → State → State) :
    loadThen src k s =
      .next ((k (s.operandValue src) (s.afterReads (s.sourceReads src))).advance src.operand.length) := by
  rw [loadThen, loadOperand_next h, andThen_next]

theorem loadThen_inv {s t : State} {src : Source} {k : Byte → State → State} (h : loadThen src k s = .next t) :
    t = (k (s.operandValue src) (s.afterReads (s.sourceReads src))).advance src.operand.length := by
  obtain ⟨m, h1, h⟩ := andThen_inv h
  cases loadOperand_inv h1
  cases h
  rfl

theorem storeThen_next {s : State} (h : s.Operational) (a : AddrForm) (v : Byte) :
    storeThen a v s = .next ((s.afterStore a v).advance (Operand.memory a).length) := by
  rw [storeThen, storeOperand_next h, andThen_next]

theorem storeThen_inv {s t : State} {a : AddrForm} {v : Byte} (h : storeThen a v s = .next t) :
    t = (s.afterStore a v).advance (Operand.memory a).length := by
  obtain ⟨u, h1, h⟩ := andThen_inv h
  cases storeOperand_inv h1
  cases h
  rfl

theorem modifyThen_next {s : State} (h : s.Operational) (t : Target) (f : Byte → Flags → Byte × Flags) :
    modifyThen t f s = .next ((s.afterModify t f).advance t.operand.length) := by
  rw [modifyThen, modifyOperand_next h, andThen_next]

theorem modifyThen_inv {s u : State} {t : Target} {f : Byte → Flags → Byte × Flags} (h : modifyThen t f s = .next u) :
    u = (s.afterModify t f).advance t.operand.length := by
  obtain ⟨v, h1, h⟩ := andThen_inv h
  cases modifyOperand_inv h1
  cases h
  rfl

end Sys2Proof.Machine
end

