-- ==== Sys2Proof/Laws/Exec.lean ====
section
/-! SUPPORT. The state after each instruction, said once for every instruction: `exec_next` (an operational system
reaches it) and `exec_inv` (no state reaches another). -/

namespace Sys2Proof

/-- The operand as a source; for the modes that are none, an immediate 0 that no load uses. -/
def Operand.source : Operand → Source
  | .immediate m => .immediate m
  | .memory a => .memory a
  | .implied | .accumulator | .relative _ => .immediate 0

/-- The operand as a target; for the modes that are none, the accumulator. -/
def Operand.target : Operand → Target
  | .memory a => .memory a
  | .implied | .accumulator | .immediate _ | .relative _ => .accumulator

/-- The operand as a memory form; for the modes that are none, one that no store uses. -/
def Operand.form : Operand → AddrForm
  | .memory a => a
  | .implied | .accumulator | .immediate _ | .relative _ => .absolute 0

/-- The displacement of a Relative operand. -/
def Operand.displacement : Operand → Byte
  | .relative d => d
  | .implied | .accumulator | .immediate _ | .memory _ => 0

/-- The operand of a load-class instruction is a source. -/
theorem Instr.operand_eq_source {i : Instr}
    (h : i.mnemonic ∈ [Mnemonic.adc, .sbc, .cmp, .cpx, .cpy, .and, .ora, .eor, .lda, .ldx, .ldy, .bit]) :
    i.operand = i.operand.source.operand := by
  cases i <;> first | rfl | simp [Instr.mnemonic] at h

/-- The operand of a modify-class instruction is a target. -/
theorem Instr.operand_eq_target {i : Instr} (h : i.mnemonic ∈ [Mnemonic.asl, .lsr, .rol, .ror, .inc, .dec]) :
    i.operand = i.operand.target.operand := by
  cases i <;> first | rfl | simp [Instr.mnemonic] at h

/-- The operand of a store, of INC, DEC and BIT is a memory form. -/
theorem Instr.operand_eq_memory {i : Instr} (h : i.mnemonic ∈ [Mnemonic.sta, .stx, .sty, .inc, .dec, .bit]) :
    i.operand = .memory i.operand.form := by
  cases i <;> first | rfl | simp [Instr.mnemonic] at h

end Sys2Proof

namespace Sys2Proof.Machine

/-- The effective address of the operand in `s`. -/
def operandAddr (o : Operand) (s : State) : Word := s.address o.form

/-- The pointer reads of the operand in `s`. -/
def operandPointers (o : Operand) (s : State) : List Word := s.pointerReads o.form

/-- The state after a load-class instruction. -/
def State.afterLoad (s : State) (src : Source) (k : Byte → State → State) : State :=
  (k (s.operandValue src) (s.afterReads (s.sourceReads src))).advance src.operand.length

/-- The state after an instruction that completes. -/
def after (i : Instr) (s : State) : State :=
  match i.mnemonic with
  | .adc => s.afterLoad i.operand.source fun m t => t.putA (addWithCarry t.a m t.flags)
  | .and => s.afterLoad i.operand.source fun m t => t.putA (resultSetFlags (t.a &&& m) t.flags)
  | .asl => (s.afterModify i.operand.target (shiftSetFlags aslBits)).advance i.operand.length
  | .bcc => s.setPc (if (!s.flags.c) then branchTarget s.pc i.operand.displacement else s.pc + 2)
  | .bcs => s.setPc (if s.flags.c then branchTarget s.pc i.operand.displacement else s.pc + 2)
  | .beq => s.setPc (if s.flags.z then branchTarget s.pc i.operand.displacement else s.pc + 2)
  | .bit => s.afterLoad i.operand.source fun m t => t.setFlags (bitTestSetFlags t.a m t.flags)
  | .bmi => s.setPc (if s.flags.n then branchTarget s.pc i.operand.displacement else s.pc + 2)
  | .bne => s.setPc (if (!s.flags.z) then branchTarget s.pc i.operand.displacement else s.pc + 2)
  | .bpl => s.setPc (if (!s.flags.n) then branchTarget s.pc i.operand.displacement else s.pc + 2)
  | .brk => (raiseBreak s).advance 1
  | .bvc => s.setPc (if (!s.flags.v) then branchTarget s.pc i.operand.displacement else s.pc + 2)
  | .bvs => s.setPc (if s.flags.v then branchTarget s.pc i.operand.displacement else s.pc + 2)
  | .clc => (s.setFlags { s.flags with c := false }).advance 1
  | .cld => (s.setFlags { s.flags with d := false }).advance 1
  | .cli => (s.setFlags { s.flags with i := false }).advance 1
  | .clv => (s.setFlags { s.flags with v := false }).advance 1
  | .cmp => s.afterLoad i.operand.source fun m t => t.setFlags (compareSetFlags t.a m t.flags)
  | .cpx => s.afterLoad i.operand.source fun m t => t.setFlags (compareSetFlags t.x m t.flags)
  | .cpy => s.afterLoad i.operand.source fun m t => t.setFlags (compareSetFlags t.y m t.flags)
  | .dec => (s.afterModify i.operand.target (fun v f => resultSetFlags (v - 1) f)).advance i.operand.length
  | .dex => (s.putX (resultSetFlags (s.x - 1) s.flags)).advance 1
  | .dey => (s.putY (resultSetFlags (s.y - 1) s.flags)).advance 1
  | .eor => s.afterLoad i.operand.source fun m t => t.putA (resultSetFlags (t.a ^^^ m) t.flags)
  | .inc => (s.afterModify i.operand.target (fun v f => resultSetFlags (v + 1) f)).advance i.operand.length
  | .inx => (s.putX (resultSetFlags (s.x + 1) s.flags)).advance 1
  | .iny => (s.putY (resultSetFlags (s.y + 1) s.flags)).advance 1
  | .jmp => (s.afterReads (operandPointers i.operand s)).setPc (operandAddr i.operand s)
  | .jsr => ((s.afterPush (hiByte (s.pc + 2))).afterPush (loByte (s.pc + 2))).setPc (operandAddr i.operand s)
  | .lda => s.afterLoad i.operand.source fun m t => t.putA (resultSetFlags m t.flags)
  | .ldx => s.afterLoad i.operand.source fun m t => t.putX (resultSetFlags m t.flags)
  | .ldy => s.afterLoad i.operand.source fun m t => t.putY (resultSetFlags m t.flags)
  | .lsr => (s.afterModify i.operand.target (shiftSetFlags lsrBits)).advance i.operand.length
  | .nop => (s).advance 1
  | .ora => s.afterLoad i.operand.source fun m t => t.putA (resultSetFlags (t.a ||| m) t.flags)
  | .pha => (s.afterPush s.a).advance 1
  | .php => (s.afterPush (packFlags s.cfg.phpBit5 s.flags)).advance 1
  | .pla => ((s.setSp (s.sp + 1)).putA (resultSetFlags s.pulled s.flags)).advance 1
  | .plp => ((s.setSp (s.sp + 1)).setFlags (unpackFlags s.pulled)).advance 1
  | .rol => (s.afterModify i.operand.target (shiftSetFlags rolBits)).advance i.operand.length
  | .ror => (s.afterModify i.operand.target (shiftSetFlags rorBits)).advance i.operand.length
  | .rti => (((s.setSp (s.sp + 1)).setFlags (unpackFlags s.pulled)).setSp (s.sp + 1 + 2)).setPc (s.setSp (s.sp + 1)).pulledWord
  | .rts => (s.setSp (s.sp + 2)).setPc (s.pulledWord + 1)
  | .sbc => s.afterLoad i.operand.source fun m t => t.putA (subtractSetFlags t.a m t.flags)
  | .sec => (s.setFlags { s.flags with c := true }).advance 1
  | .sed => (s.setFlags { s.flags with d := true }).advance 1
  | .sei => (s.setFlags { s.flags with i := true }).advance 1
  | .sta => (s.afterStore i.operand.form s.a).advance i.operand.length
  | .stx => (s.afterStore i.operand.form s.x).advance i.operand.length
  | .sty => (s.afterStore i.operand.form s.y).advance i.operand.length
  | .tax => (s.putX (resultSetFlags s.a s.flags)).advance 1
  | .tay => (s.putY (resultSetFlags s.a s.flags)).advance 1
  | .tsx => (s.putX (resultSetFlags s.sp s.flags)).advance 1
  | .txa => (s.putA (resultSetFlags s.x s.flags)).advance 1
  | .txs => (s.setSp s.x).advance 1
  | .tya => (s.putA (resultSetFlags s.y s.flags)).advance 1

theorem returnFromInterrupt_next {s : State} (h : s.Operational) :
    returnFromInterrupt s = .next ((((s.setSp (s.sp + 1)).setFlags (unpackFlags s.pulled)).setSp (s.sp + 1 + 2)).setPc
      (s.setSp (s.sp + 1)).pulledWord) := by
  have h' : ((s.setSp (s.sp + 1)).setFlags (unpackFlags s.pulled)).Operational := h
  rw [returnFromInterrupt, stackPull_next h, andThen_next, pullWord_next h', andThen_next]
  rfl

theorem returnFromInterrupt_inv {s t : State} (h : returnFromInterrupt s = .next t) :
    t = (((s.setSp (s.sp + 1)).setFlags (unpackFlags s.pulled)).setSp (s.sp + 1 + 2)).setPc
      (s.setSp (s.sp + 1)).pulledWord := by
  obtain ⟨p, h1, h⟩ := andThen_inv h
  obtain ⟨w, h2, h⟩ := andThen_inv h
  cases stackPull_inv h1
  cases pullWord_inv h2
  cases h
  rfl

/-- Every instruction completes in an operational system. -/
theorem exec_next {s : State} (h : s.Operational) (i : Instr) : exec i s = .next (after i s) := by
  cases i
  case pha => change execPha s = _; rw [execPha, stackPush_next h]; rfl
  case php => change execPhp s = _; rw [execPhp, stackPush_next h]; rfl
  case pla => change execPla s = _; rw [execPla, stackPull_next h]; rfl
  case plp => change execPlp s = _; rw [execPlp, stackPull_next h]; rfl
  case jsr w => change execJsr w s = _; rw [execJsr, pushWord_next h]; rfl
  case rts => change execRts s = _; rw [execRts, pullWord_next h]; rfl
  case rti => exact returnFromInterrupt_next h
  case jmpInd w => change execJmpInd w s = _; rw [execJmpInd, effectiveAddress_next h]; rfl
  case adcIzx | adcZp | adcAbs | adcIzy | adcZpx | adcAby | adcAbx =>
    change adcOp _ s = _; rw [adcOp, loadThen_next h]; rfl
  case adcImm m =>
    change adcOp (.immediate m) s = _; rw [adcOp, loadThen_next h]; rfl
  case andIzx | andZp | andAbs | andIzy | andZpx | andAby | andAbx =>
    change andOp _ s = _; rw [andOp, loadThen_next h]; rfl
  case andImm m =>
    change andOp (.immediate m) s = _; rw [andOp, loadThen_next h]; rfl
  case aslZp | aslAbs | aslZpx | aslAbx =>
    change aslOp _ s = _; rw [aslOp, modifyThen_next h]; rfl
  case aslAcc =>
    change aslOp .accumulator s = _; rw [aslOp, modifyThen_next h]; rfl
  case bitZp | bitAbs =>
    change bitOp _ s = _; rw [bitOp, loadThen_next h]; rfl
  case cmpIzx | cmpZp | cmpAbs | cmpIzy | cmpZpx | cmpAby | cmpAbx =>
    change cmpOp _ s = _; rw [cmpOp, loadThen_next h]; rfl
  case cmpImm m =>
    change cmpOp (.immediate m) s = _; rw [cmpOp, loadThen_next h]; rfl
  case cpxZp | cpxAbs =>
    change cpxOp _ s = _; rw [cpxOp, loadThen_next h]; rfl
  case cpxImm m =>
    change cpxOp (.immediate m) s = _; rw [cpxOp, loadThen_next h]; rfl
  case cpyZp | cpyAbs =>
    change cpyOp _ s = _; rw [cpyOp, loadThen_next h]; rfl
  case cpyImm m =>
    change cpyOp (.immediate m) s = _; rw [cpyOp, loadThen_next h]; rfl
  case decZp | decAbs | decZpx | decAbx =>
    change decOp _ s = _; rw [decOp, modifyThen_next h]; rfl
  case eorIzx | eorZp | eorAbs | eorIzy | eorZpx | eorAby | eorAbx =>
    change eorOp _ s = _; rw [eorOp, loadThen_next h]; rfl
  case eorImm m =>
    change eorOp (.immediate m) s = _; rw [eorOp, loadThen_next h]; rfl
  case incZp | incAbs | incZpx | incAbx =>
    change incOp _ s = _; rw [incOp, modifyThen_next h]; rfl
  case ldaIzx | ldaZp | ldaAbs | ldaIzy | ldaZpx | ldaAby | ldaAbx =>
    change ldaOp _ s = _; rw [ldaOp, loadThen_next h]; rfl
  case ldaImm m =>
    change ldaOp (.immediate m) s = _; rw [ldaOp, loadThen_next h]; rfl
  case ldxZp | ldxAbs | ldxZpy | ldxAby =>
    change ldxOp _ s = _; rw [ldxOp, loadThen_next h]; rfl
  case ldxImm m =>
    change ldxOp (.immediate m) s = _; rw [ldxOp, loadThen_next h]; rfl
  case ldyZp | ldyAbs | ldyZpx | ldyAbx =>
    change ldyOp _ s = _; rw [ldyOp, loadThen_next h]; rfl
  case ldyImm m =>
    change ldyOp (.immediate m) s = _; rw [ldyOp, loadThen_next h]; rfl
  case lsrZp | lsrAbs | lsrZpx | lsrAbx =>
    change lsrOp _ s = _; rw [lsrOp, modifyThen_next h]; rfl
  case lsrAcc =>
    change lsrOp .accumulator s = _; rw [lsrOp, modifyThen_next h]; rfl
  case oraIzx | oraZp | oraAbs | oraIzy | oraZpx | oraAby | oraAbx =>
    change oraOp _ s = _; rw [oraOp, loadThen_next h]; rfl
  case oraImm m =>
    change oraOp (.immediate m) s = _; rw [oraOp, loadThen_next h]; rfl
  case rolZp | rolAbs | rolZpx | rolAbx =>
    change rolOp _ s = _; rw [rolOp, modifyThen_next h]; rfl
  case rolAcc =>
    change rolOp .accumulator s = _; rw [rolOp, modifyThen_next h]; rfl
  case rorZp | rorAbs | rorZpx | rorAbx =>
    change rorOp _ s = _; rw [rorOp, modifyThen_next h]; rfl
  case rorAcc =>
    change rorOp .accumulator s = _; rw [rorOp, modifyThen_next h]; rfl
  case sbcIzx | sbcZp | sbcAbs | sbcIzy | sbcZpx | sbcAby | sbcAbx =>
    change sbcOp _ s = _; rw [sbcOp, loadThen_next h]; rfl
  case sbcImm m =>
    change sbcOp (.immediate m) s = _; rw [sbcOp, loadThen_next h]; rfl
  case staIzx | staZp | staAbs | staIzy | staZpx | staAby | staAbx =>
    change staOp _ s = _; rw [staOp, storeThen_next h]; rfl
  case stxZp | stxAbs | stxZpy =>
    change stxOp _ s = _; rw [stxOp, storeThen_next h]; rfl
  case styZp | styAbs | styZpx =>
    change styOp _ s = _; rw [styOp, storeThen_next h]; rfl
  case brk | bpl | clc | bmi | sec | jmpAbs | bvc | cli | bvs | sei | dey | txa | bcc | tya | txs | tay | tax | bcs |
    clv | tsx | iny | dex | bne | cld | inx | nop | beq | sed => rfl

/-- An instruction that completes gives that state, in any system. -/
theorem exec_inv {s t : State} {i : Instr} (h : exec i s = .next t) : t = after i s := by
  cases i
  case pha => obtain ⟨u, h1, h⟩ := andThen_inv h; cases stackPush_inv h1; cases h; rfl
  case php => obtain ⟨u, h1, h⟩ := andThen_inv h; cases stackPush_inv h1; cases h; rfl
  case pla => obtain ⟨u, h1, h⟩ := andThen_inv h; cases stackPull_inv h1; cases h; rfl
  case plp => obtain ⟨u, h1, h⟩ := andThen_inv h; cases stackPull_inv h1; cases h; rfl
  case jsr => obtain ⟨u, h1, h⟩ := andThen_inv h; cases pushWord_inv h1; cases h; rfl
  case rts => obtain ⟨u, h1, h⟩ := andThen_inv h; cases pullWord_inv h1; cases h; rfl
  case rti => exact returnFromInterrupt_inv h
  case jmpInd => obtain ⟨u, h1, h⟩ := andThen_inv h; cases effectiveAddress_inv h1; cases h; rfl
  case adcIzx | adcZp | adcAbs | adcIzy | adcZpx | adcAby | adcAbx =>
    replace h : adcOp _ s = .next t := h
    rw [loadThen_inv h]; rfl
  case adcImm m =>
    replace h : adcOp (.immediate m) s = .next t := h
    rw [loadThen_inv h]; rfl
  case andIzx | andZp | andAbs | andIzy | andZpx | andAby | andAbx =>
    replace h : andOp _ s = .next t := h
    rw [loadThen_inv h]; rfl
  case andImm m =>
    replace h : andOp (.immediate m) s = .next t := h
    rw [loadThen_inv h]; rfl
  case aslZp | aslAbs | aslZpx | aslAbx =>
    replace h : aslOp _ s = .next t := h
    rw [modifyThen_inv h]; rfl
  case aslAcc =>
    replace h : aslOp .accumulator s = .next t := h
    rw [modifyThen_inv h]; rfl
  case bitZp | bitAbs =>
    replace h : bitOp _ s = .next t := h
    rw [loadThen_inv h]; rfl
  case cmpIzx | cmpZp | cmpAbs | cmpIzy | cmpZpx | cmpAby | cmpAbx =>
    replace h : cmpOp _ s = .next t := h
    rw [loadThen_inv h]; rfl
  case cmpImm m =>
    replace h : cmpOp (.immediate m) s = .next t := h
    rw [loadThen_inv h]; rfl
  case cpxZp | cpxAbs =>
    replace h : cpxOp _ s = .next t := h
    rw [loadThen_inv h]; rfl
  case cpxImm m =>
    replace h : cpxOp (.immediate m) s = .next t := h
    rw [loadThen_inv h]; rfl
  case cpyZp | cpyAbs =>
    replace h : cpyOp _ s = .next t := h
    rw [loadThen_inv h]; rfl
  case cpyImm m =>
    replace h : cpyOp (.immediate m) s = .next t := h
    rw [loadThen_inv h]; rfl
  case decZp | decAbs | decZpx | decAbx =>
    replace h : decOp _ s = .next t := h
    rw [modifyThen_inv h]; rfl
  case eorIzx | eorZp | eorAbs | eorIzy | eorZpx | eorAby | eorAbx =>
    replace h : eorOp _ s = .next t := h
    rw [loadThen_inv h]; rfl
  case eorImm m =>
    replace h : eorOp (.immediate m) s = .next t := h
    rw [loadThen_inv h]; rfl
  case incZp | incAbs | incZpx | incAbx =>
    replace h : incOp _ s = .next t := h
    rw [modifyThen_inv h]; rfl
  case ldaIzx | ldaZp | ldaAbs | ldaIzy | ldaZpx | ldaAby | ldaAbx =>
    replace h : ldaOp _ s = .next t := h
    rw [loadThen_inv h]; rfl
  case ldaImm m =>
    replace h : ldaOp (.immediate m) s = .next t := h
    rw [loadThen_inv h]; rfl
  case ldxZp | ldxAbs | ldxZpy | ldxAby =>
    replace h : ldxOp _ s = .next t := h
    rw [loadThen_inv h]; rfl
  case ldxImm m =>
    replace h : ldxOp (.immediate m) s = .next t := h
    rw [loadThen_inv h]; rfl
  case ldyZp | ldyAbs | ldyZpx | ldyAbx =>
    replace h : ldyOp _ s = .next t := h
    rw [loadThen_inv h]; rfl
  case ldyImm m =>
    replace h : ldyOp (.immediate m) s = .next t := h
    rw [loadThen_inv h]; rfl
  case lsrZp | lsrAbs | lsrZpx | lsrAbx =>
    replace h : lsrOp _ s = .next t := h
    rw [modifyThen_inv h]; rfl
  case lsrAcc =>
    replace h : lsrOp .accumulator s = .next t := h
    rw [modifyThen_inv h]; rfl
  case oraIzx | oraZp | oraAbs | oraIzy | oraZpx | oraAby | oraAbx =>
    replace h : oraOp _ s = .next t := h
    rw [loadThen_inv h]; rfl
  case oraImm m =>
    replace h : oraOp (.immediate m) s = .next t := h
    rw [loadThen_inv h]; rfl
  case rolZp | rolAbs | rolZpx | rolAbx =>
    replace h : rolOp _ s = .next t := h
    rw [modifyThen_inv h]; rfl
  case rolAcc =>
    replace h : rolOp .accumulator s = .next t := h
    rw [modifyThen_inv h]; rfl
  case rorZp | rorAbs | rorZpx | rorAbx =>
    replace h : rorOp _ s = .next t := h
    rw [modifyThen_inv h]; rfl
  case rorAcc =>
    replace h : rorOp .accumulator s = .next t := h
    rw [modifyThen_inv h]; rfl
  case sbcIzx | sbcZp | sbcAbs | sbcIzy | sbcZpx | sbcAby | sbcAbx =>
    replace h : sbcOp _ s = .next t := h
    rw [loadThen_inv h]; rfl
  case sbcImm m =>
    replace h : sbcOp (.immediate m) s = .next t := h
    rw [loadThen_inv h]; rfl
  case staIzx | staZp | staAbs | staIzy | staZpx | staAby | staAbx =>
    replace h : staOp _ s = .next t := h
    rw [storeThen_inv h]; rfl
  case stxZp | stxAbs | stxZpy =>
    replace h : stxOp _ s = .next t := h
    rw [storeThen_inv h]; rfl
  case styZp | styAbs | styZpx =>
    replace h : styOp _ s = .next t := h
    rw [storeThen_inv h]; rfl
  case brk | bpl | clc | bmi | sec | jmpAbs | bvc | cli | bvs | sei | dey | txa | bcc | tya | txs | tay | tax | bcs |
    clv | tsx | iny | dex | bne | cld | inx | nop | beq | sed => exact (Host.Outcome.next.inj h).symm

/-! ## What an instruction can do beside writing registers -/

/-- `b` with the registers and the flags of `t`. -/
def State.withRegistersOf (b t : State) : State :=
  { b with pc := t.pc, sp := t.sp, a := t.a, x := t.x, y := t.y, flags := t.flags }

/-- Beside registers and flags an instruction changes what one of these does: reads; reads and one write; the BRK signal;
one push or two. -/
theorem after_shape (i : Instr) (s : State) :
    ∃ b, after i s = b.withRegistersOf (after i s) ∧
      ((∃ l, b = s.afterReads l) ∨ (∃ l v d, b = (s.afterReads l).afterWrite v d) ∨
        (i.mnemonic = .brk ∧ b = s.emit .brkSignal) ∨ (∃ p d, b = s.setPrivRam (s.privRam.write p d)) ∨
        ∃ p d q e, b = s.setPrivRam ((s.privRam.write p d).write q e)) := by
  cases hm : i.mnemonic <;> simp only [after, hm]
  case pha | php => exact ⟨s.setPrivRam (s.privRam.write _ _), rfl, .inr (.inr (.inr (.inl ⟨_, _, rfl⟩)))⟩
  case jsr =>
    exact ⟨s.setPrivRam ((s.privRam.write _ _).write _ _), rfl, .inr (.inr (.inr (.inr ⟨_, _, _, _, rfl⟩)))⟩
  case brk => exact ⟨s.emit .brkSignal, rfl, .inr (.inr (.inl ⟨trivial, rfl⟩))⟩
  case jmp => exact ⟨s.afterReads (operandPointers i.operand s), rfl, .inl ⟨_, rfl⟩⟩
  case sta | stx | sty =>
    exact ⟨(s.afterReads (s.pointerReads i.operand.form)).afterWrite _ _, rfl, .inr (.inl ⟨_, _, _, rfl⟩)⟩
  case lda | ldx | ldy | adc | sbc | and | ora | eor | cmp | cpx | cpy | bit =>
    exact ⟨s.afterReads (s.sourceReads i.operand.source), rfl, .inl ⟨_, rfl⟩⟩
  case asl | lsr | rol | ror | inc | dec =>
    cases i.operand.target with
    | accumulator => exact ⟨s.afterReads [], rfl, .inl ⟨_, rfl⟩⟩
    | memory a =>
      exact ⟨(s.afterReads (s.sourceReads (.memory a))).afterWrite (s.address a) _, rfl, .inr (.inl ⟨_, _, _, rfl⟩)⟩
  all_goals exact ⟨s.afterReads [], rfl, .inl ⟨_, rfl⟩⟩

/-- No instruction changes the bus between steps, the lifecycle, the peripherals, the configuration or the host's
commands. -/
theorem after_system (i : Instr) (s : State) : SameSystem s (after i s) := by
  obtain ⟨b, h, hb⟩ := after_shape i s
  suffices hs : SameSystem s b by rw [h]; exact hs
  rcases hb with ⟨l, rfl⟩ | ⟨l, v, d, rfl⟩ | ⟨-, rfl⟩ | ⟨p, d, rfl⟩ | ⟨p, d, q, e, rfl⟩ <;> simp [SameSystem]

end Sys2Proof.Machine
end

