-- ==== Sys2Proof/Laws/Cycle.lean ====
section
/-! SUPPORT. What the fetch and a step do: the state after them where they complete (`_next`), and that they give nothing
else (`_inv`). -/

namespace Sys2Proof.Machine

/-- The three bytes at `PC`, the most an instruction has (R100). -/
def State.window (s : State) : List Byte := [s.peek s.pc, s.peek (s.pc + 1), s.peek (s.pc + 2)]

/-- The addresses an instruction of this length is fetched from (R121). -/
def State.fetchReads (s : State) (n : Nat) : List Word := [s.pc, s.pc + 1, s.pc + 2].take n

/-- A decoded instruction needs no byte past its own length. -/
theorem decode_prefix {op b1 b2 : Byte} {i : Instr} {rest : List Byte} (h : decode [op, b1, b2] = .ok (i, rest)) :
    ∃ m md, dispatch op = some (m, md) ∧ i.operand.length = md.length ∧
      decode (op :: [b1, b2].take (md.length - 1)) = .ok (i, []) := by
  unfold decode at h
  dsimp only at h
  split at h
  · cases h
  · rename_i m md hd
    split at h
    · cases h
    · rename_i o r ho
      split at h
      · cases h
      · rename_i j hj
        cases h
        have hlen : i.operand.length = md.length := by
          rw [(Instr.ofForm_some hj).2]
          exact congrArg Mode.length (takeOperand_some ho).1
        refine ⟨m, md, hd, hlen, ?_⟩
        have hb : takeOperand md ([b1, b2].take (md.length - 1)) = some (o, []) := by
          revert ho
          cases md <;> intro ho <;> cases ho <;> rfl
        simp [decode, hd, hb, hj]

theorem fetchOperandBytes_next {s : State} (h : s.Operational) (md : Mode) :
    fetchOperandBytes md s = .next ([s.peek (s.pc + 1), s.peek (s.pc + 2)].take (md.length - 1),
      s.afterReads ([s.pc + 1, s.pc + 2].take (md.length - 1))) := by
  have h2 : ∀ l v, memRead v (s.afterReads l) = _ := fun l v => memRead_next ((s.afterReads_operational l).2 h) v
  have h3 : ∀ v, s.afterRead v = s.afterReads [v] := fun v => rfl
  cases md <;> simp [fetchOperandBytes, Mode.length, memRead_next h, h3, h2] <;> rfl

theorem fetchOperandBytes_inv {s : State} {md : Mode} {r : List Byte × State} (h : fetchOperandBytes md s = .next r) :
    r = ([s.peek (s.pc + 1), s.peek (s.pc + 2)].take (md.length - 1),
      s.afterReads ([s.pc + 1, s.pc + 2].take (md.length - 1))) := by
  unfold fetchOperandBytes at h
  split at h
  · rename_i hl
    obtain ⟨b1, h1, h⟩ := andThen_inv h
    cases memRead_inv h1
    cases h
    rw [hl]; rfl
  · rename_i hl
    obtain ⟨b1, h1, h⟩ := andThen_inv h
    obtain ⟨b2, h2, h⟩ := andThen_inv h
    cases memRead_inv h1
    cases memRead_inv h2
    cases h
    rw [hl]; rfl
  · cases h
    cases md <;> first | rfl | (exfalso; simp_all [Mode.length])

/-- The fetch in an operational system (R120, R121). -/
theorem fetch_next {s : State} (h : s.Operational) {i : Instr} {rest : List Byte}
    (hd : decode s.window = .ok (i, rest)) :
    fetch s = .next (i, s.afterReads (s.fetchReads i.operand.length)) := by
  obtain ⟨m, md, h1, hl, h2⟩ := decode_prefix hd
  have h3 : (s.afterReads [s.pc]).Operational := by simpa using h
  have h4 : s.afterRead s.pc = s.afterReads [s.pc] := rfl
  have hf : s.fetchReads i.operand.length = s.pc :: [s.pc + 1, s.pc + 2].take (md.length - 1) := by
    rw [hl]; cases md <;> rfl
  rw [fetch, memRead_next h, andThen_next]
  simp only [h1, h4, fetchOperandBytes_next h3, andThen_next, State.peek_afterReads, State.afterReads_pc, h2, hf]
  rfl

/-- The fetch of an illegal opcode (R108, R255). -/
theorem fetch_illegal {s : State} (h : s.Operational) (hd : dispatch (s.peek s.pc) = none) :
    fetch s = .fault (.illegalOpcode (s.peek s.pc) s.pc) := by
  rw [fetch, memRead_next h, andThen_next]
  simp only [hd]

theorem fetch_inv {s t : State} {i : Instr} (h : fetch s = .next (i, t)) :
    ∃ l, t = s.afterReads l := by
  obtain ⟨op, h1, h⟩ := andThen_inv h
  cases memRead_inv h1
  dsimp only at h
  split at h
  · cases h
  · obtain ⟨bs, h2, h⟩ := andThen_inv h
    have h3 := fetchOperandBytes_inv h2
    split at h
    · cases h
      subst h3
      exact ⟨_ :: _, rfl⟩
    · cases h

/-- A step with no host command waiting completes only as the meaning of one instruction, run from the state after reads
alone (R120). -/
theorem cycle_inv {s t : State} (h : cycle exec s = .next t) :
    (s.life = .ready ∨ s.life = .running) ∧ ∃ i l, t = after i ((s.setLife .running).afterReads l) := by
  obtain ⟨s0, h0, h⟩ := andThen_inv h
  obtain ⟨r, h1, h2⟩ := andThen_inv h
  obtain ⟨l, hl⟩ := fetch_inv (i := r.1) (t := r.2) h1
  unfold beginStep at h0
  split at h0
  all_goals cases h0
  · exact ⟨.inl ‹_›, r.1, l, by rw [← hl]; exact exec_inv h2⟩
  · exact ⟨.inr ‹_›, r.1, l, by rw [← hl]; exact exec_inv h2⟩

/-- A step completes as a host command or as one instruction. -/
theorem step_inv {s t : State} (h : step s = .next t) :
    (∃ cmd rest, s.host = cmd :: rest ∧ hostCommand cmd (s.setHost rest) = .next t) ∨
    (s.host = [] ∧ (s.life = .ready ∨ s.life = .running) ∧
      ∃ i l, t = after i ((s.setLife .running).afterReads l)) := by
  unfold step at h
  split at h
  · rename_i cmd rest hh; exact .inl ⟨cmd, rest, hh, h⟩
  · rename_i hh; exact .inr ⟨hh, cycle_inv h⟩

/-- A step of a system that can take one is the fetch and then `exec`. -/
theorem step_fetch {s : State} (h : s.CanStep) :
    step s = andThen (fetch (s.setLife .running)) fun r => exec r.1 r.2 := by
  obtain ⟨hh, hl | hl⟩ := h <;> simp [step, hh, cycle, beginStep, hl]

end Sys2Proof.Machine
end

