-- ==== Sys2Proof/Laws/Flags.lean ====
section
/-! SUPPORT. The flag computations as numbers: what each gives for every operand. -/

namespace Sys2Proof.Machine

/-- The top bit of a byte. -/
theorem getLsbD_7 (v : Byte) : v.getLsbD 7 = decide (128 ≤ v.toNat) := by
  have := v.isLt
  rw [BitVec.getLsbD, Nat.testBit_eq_decide_div_mod_eq, decide_eq_decide]
  omega

/-- Bit 6 of a byte. -/
theorem getLsbD_6 (v : Byte) : v.getLsbD 6 = decide (64 ≤ v.toNat % 128) := by
  rw [BitVec.getLsbD, Nat.testBit_eq_decide_div_mod_eq, decide_eq_decide]
  omega

/-- The low bit of a byte. -/
theorem getLsbD_0 (v : Byte) : v.getLsbD 0 = decide (v.toNat % 2 = 1) := by
  rw [BitVec.getLsbD, Nat.testBit_eq_decide_div_mod_eq, decide_eq_decide]
  omega

/-- `SetZN(v)` by the value of `v` (R137). -/
theorem setZN_eq (v : Byte) (f : Flags) :
    setZN v f = { f with z := decide (v.toNat = 0), n := decide (128 ≤ v.toNat) } := by
  have hz : decide (v = 0) = decide (v.toNat = 0) := by
    rw [decide_eq_decide, ← BitVec.toNat_inj]; rfl
  rw [setZN, getLsbD_7, hz]

theorem bit_toNat {w : Nat} (hw : 0 < w) (c : Bool) : (bit w c).toNat = c.toNat := by
  have h := Nat.one_lt_two_pow (n := w) (by omega)
  cases c <;> simp [bit, Nat.mod_eq_of_lt h]

/-- The 9-bit sum is the sum (R140). -/
theorem sum9_toNat (x y : Byte) (c : Bool) : (sum9 x y c).toNat = x.toNat + y.toNat + c.toNat := by
  have hx := x.isLt
  have hy := y.isLt
  have hc := c.toNat_le
  simp only [sum9, zext9, BitVec.toNat_add, BitVec.toNat_setWidth, bit_toNat (w := 9) (by omega)]
  omega

theorem sum9_carry (x y : Byte) (c : Bool) :
    (sum9 x y c).getLsbD 8 = decide (256 ≤ x.toNat + y.toNat + c.toNat) := by
  have hx := x.isLt
  have hy := y.isLt
  have hc := c.toNat_le
  rw [BitVec.getLsbD, Nat.testBit_eq_decide_div_mod_eq, decide_eq_decide, sum9_toNat]
  omega

theorem carryIntoBit7_eq (x y : Byte) (c : Bool) :
    carryIntoBit7 x y c = decide (128 ≤ x.toNat % 128 + y.toNat % 128 + c.toNat) := by
  have hc := c.toNat_le
  have hm : ∀ z : Byte, (z &&& 0x7F).toNat = z.toNat % 128 := fun z => Nat.and_two_pow_sub_one_eq_mod z.toNat 7
  rw [carryIntoBit7, getLsbD_7, decide_eq_decide]
  simp only [BitVec.toNat_add, hm, bit_toNat (w := 8) (by omega)]
  omega

/-- `ovf` of R140: the signed sum, the carry included, is outside -128 .. 127. -/
theorem addOverflow_eq (x y : Byte) (c : Bool) :
    (carryIntoBit7 x y c ^^ (sum9 x y c).getLsbD 8) = outsideSigned8 (x.toInt + y.toInt + c.toNat) := by
  have hx := x.isLt
  have hy := y.isLt
  have hc := c.toNat_le
  have hxor : ∀ p q : Bool, (p ^^ q) = true ↔ ¬ (p = true ↔ q = true) := by decide
  rw [carryIntoBit7_eq, sum9_carry, outsideSigned8, Bool.eq_iff_iff, hxor]
  simp only [BitVec.toInt_eq_toNat_cond, Bool.or_eq_true, decide_eq_true_eq]
  split <;> split <;> omega

/-- `AddWithCarry(x, y)` (R140). -/
theorem addWithCarry_eq (x y : Byte) (f : Flags) :
    addWithCarry x y f = (BitVec.ofNat 8 (x.toNat + y.toNat + f.c.toNat),
      { f with
        c := decide (256 ≤ x.toNat + y.toNat + f.c.toNat)
        v := outsideSigned8 (x.toInt + y.toInt + f.c.toNat)
        z := decide ((x.toNat + y.toNat + f.c.toNat) % 256 = 0)
        n := decide (128 ≤ (x.toNat + y.toNat + f.c.toNat) % 256) }) := by
  have hr : (sum9 x y f.c).setWidth 8 = BitVec.ofNat 8 (x.toNat + y.toNat + f.c.toNat) := by
    apply BitVec.eq_of_toNat_eq
    rw [BitVec.toNat_setWidth, sum9_toNat, BitVec.toNat_ofNat]
  have hv := addOverflow_eq x y f.c
  rw [sum9_carry] at hv
  simp only [addWithCarry, hv, hr, sum9_carry, setZN_eq, BitVec.toNat_ofNat, Nat.reducePow]

/-- The 9-bit difference (R143). -/
theorem diff9_toNat (x y : Byte) (c : Bool) : (diff9 x y c).toNat = x.toNat + (255 - y.toNat) + c.toNat := by
  rw [diff9, sum9_toNat, BitVec.toNat_not]

theorem diff9_carry (x y : Byte) (c : Bool) :
    (diff9 x y c).getLsbD 8 = decide (y.toNat + (1 - c.toNat) ≤ x.toNat) := by
  have hy := y.isLt
  have hc := c.toNat_le
  rw [diff9, sum9_carry, BitVec.toNat_not, decide_eq_decide]
  omega

/-- The low byte of the difference is `x - y - (1 - cin)` modulo 256 (R143). -/
theorem diff9_low (x y : Byte) (c : Bool) :
    (diff9 x y c).setWidth 8 = BitVec.ofInt 8 ((x.toNat : Int) - y.toNat - (1 - c.toNat : Nat)) := by
  have hx := x.isLt
  have hy := y.isLt
  have hc := c.toNat_le
  apply BitVec.eq_of_toNat_eq
  rw [BitVec.toNat_setWidth, diff9_toNat, BitVec.toNat_ofInt]
  omega

/-- SBC (R144). -/
theorem subtractSetFlags_eq (x y : Byte) (f : Flags) :
    subtractSetFlags x y f =
      let borrow := 1 - f.c.toNat
      let diff : Int := x.toNat - y.toNat - borrow
      (BitVec.ofInt 8 diff,
        { f with
          c := decide (y.toNat + borrow ≤ x.toNat)
          v := outsideSigned8 (x.toInt - y.toInt - borrow)
          z := decide (diff % 256 = 0)
          n := decide (128 ≤ diff % 256) }) := by
  have hc := f.c.toNat_le
  simp only [subtractSetFlags, subtractWithCarry, diff9_low, diff9_carry, setZN_eq, subOverflow, outsideSigned8,
    BitVec.toNat_ofInt, Nat.reducePow]
  rw [show (1 : Int) - f.c.toNat = (1 - f.c.toNat : Nat) by omega]
  congr 3 <;> (rw [eq_iff_iff]; omega)

/-- Compare: the difference with carry in 1, `V` not written (R145). -/
theorem compareSetFlags_eq (x y : Byte) (f : Flags) :
    compareSetFlags x y f =
      { f with
        c := decide (y.toNat ≤ x.toNat)
        z := decide (x = y)
        n := decide (128 ≤ ((x.toNat : Int) - y.toNat) % 256) } := by
  have hx := x.isLt
  have hy := y.isLt
  simp only [compareSetFlags, subtractWithCarry, diff9_low, diff9_carry, setZN_eq, BitVec.toNat_ofInt,
    ← BitVec.toNat_inj, Bool.toNat_true]
  congr 1 <;> rw [decide_eq_decide] <;> omega

/-- `asl(v)` (R150). -/
theorem shiftSetFlags_asl (v : Byte) (f : Flags) :
    shiftSetFlags aslBits v f =
      let r := BitVec.ofNat 8 (2 * v.toNat)
      (r, { f with c := decide (128 ≤ v.toNat), z := decide (r.toNat = 0), n := decide (128 ≤ r.toNat) }) := by
  have hr : v <<< 1 = BitVec.ofNat 8 (2 * v.toNat) := by
    apply BitVec.eq_of_toNat_eq
    rw [BitVec.toNat_shiftLeft, BitVec.toNat_ofNat, Nat.shiftLeft_eq, Nat.mul_comm, pow_one]
  simp only [shiftSetFlags, aslBits, getLsbD_7, setZN_eq, hr]

/-- `lsr(v)` (R150). -/
theorem shiftSetFlags_lsr (v : Byte) (f : Flags) :
    shiftSetFlags lsrBits v f =
      let r := BitVec.ofNat 8 (v.toNat / 2)
      (r, { f with c := decide (v.toNat % 2 = 1), z := decide (r.toNat = 0), n := false }) := by
  have hv := v.isLt
  have hr : v >>> 1 = BitVec.ofNat 8 (v.toNat / 2) := by
    apply BitVec.eq_of_toNat_eq
    rw [BitVec.toNat_ushiftRight, BitVec.toNat_ofNat, Nat.shiftRight_eq_div_pow]
    omega
  simp only [shiftSetFlags, lsrBits, getLsbD_0, setZN_eq, hr, BitVec.toNat_ofNat]
  congr 3
  rw [decide_eq_false_iff_not]; omega

/-- `rol(v, C)` (R150). -/
theorem shiftSetFlags_rol (v : Byte) (f : Flags) :
    shiftSetFlags rolBits v f =
      let r := BitVec.ofNat 8 (2 * v.toNat + f.c.toNat)
      (r, { f with c := decide (128 ≤ v.toNat), z := decide (r.toNat = 0), n := decide (128 ≤ r.toNat) }) := by
  have hr : v <<< 1 ||| bit 8 f.c = BitVec.ofNat 8 (2 * v.toNat + f.c.toNat) := by
    cases f.c <;> revert v <;> decide
  simp only [shiftSetFlags, rolBits, getLsbD_7, setZN_eq, hr]

/-- `ror(v, C)` (R150). -/
theorem shiftSetFlags_ror (v : Byte) (f : Flags) :
    shiftSetFlags rorBits v f =
      let r := BitVec.ofNat 8 (v.toNat / 2 + 128 * f.c.toNat)
      (r, { f with c := decide (v.toNat % 2 = 1), z := decide (r.toNat = 0), n := f.c }) := by
  have hr : v >>> 1 ||| (bit 8 f.c <<< 7) = BitVec.ofNat 8 (v.toNat / 2 + 128 * f.c.toNat) := by
    cases f.c <;> revert v <;> decide
  have hv := v.isLt
  have hc := f.c.toNat_le
  have hn : decide (128 ≤ (v.toNat / 2 + 128 * f.c.toNat) % 2 ^ 8) = f.c := by
    cases hf : f.c <;> simp <;> omega
  simp only [shiftSetFlags, rorBits, getLsbD_0, setZN_eq, hr, BitVec.toNat_ofNat, hn]

/-- A result that sets `Z` and `N` only. -/
theorem resultSetFlags_eq (r : Byte) (f : Flags) :
    resultSetFlags r f = (r, { f with z := decide (r.toNat = 0), n := decide (128 ≤ r.toNat) }) := by
  rw [resultSetFlags, setZN_eq]

/-- BIT (R163). -/
theorem bitTestSetFlags_eq (a m : Byte) (f : Flags) :
    bitTestSetFlags a m f =
      { f with z := decide ((a &&& m).toNat = 0), n := decide (128 ≤ m.toNat), v := decide (64 ≤ m.toNat % 128) } := by
  have hz : decide (a &&& m = 0) = decide ((a &&& m).toNat = 0) := by
    rw [decide_eq_decide, ← BitVec.toNat_inj]; rfl
  rw [bitTestSetFlags, getLsbD_7, getLsbD_6, hz]

/-- `Pack()`, bit by bit (R26). -/
theorem packFlags_bits (bit5 : Bool) (f : Flags) :
    (packFlags bit5 f).getLsbD 0 = f.c ∧ (packFlags bit5 f).getLsbD 1 = f.z ∧ (packFlags bit5 f).getLsbD 2 = f.i ∧
    (packFlags bit5 f).getLsbD 3 = f.d ∧ (packFlags bit5 f).getLsbD 4 = f.b ∧ (packFlags bit5 f).getLsbD 5 = bit5 ∧
    (packFlags bit5 f).getLsbD 6 = f.v ∧ (packFlags bit5 f).getLsbD 7 = f.n := by
  obtain ⟨c, z, i, d, b, v, n⟩ := f
  revert c z i d b v n bit5
  decide

end Sys2Proof.Machine
end

