-- ==== Sys2Proof/Laws/Lifecycle.lean ====
section
/-! SUPPORT. What the host commands do, and that the state after reset is the one the bring-up sequence reaches. -/

namespace Sys2Proof.Machine

/-- The bring-up sequence, run on the system before construction, gives the state after reset (R281, R286). -/
theorem reset_is_bringUp : runCommands bringUp State.powerOn = .next State.reset := by rfl

/-- The constructed system (R280). -/
def State.constructed (s : State) : State :=
  (((((((s.setRam []).setRom []).setGpuOut []).setGpuLog []).setTrace []).setBus .idle).setUnits
    ⟨.idle, .idle, .idle⟩).setLife .ready

@[simp] theorem State.constructed_pc (s : State) : s.constructed.pc = s.pc := by simp [State.constructed]
@[simp] theorem State.constructed_sp (s : State) : s.constructed.sp = s.sp := by simp [State.constructed]
@[simp] theorem State.constructed_a (s : State) : s.constructed.a = s.a := by simp [State.constructed]
@[simp] theorem State.constructed_x (s : State) : s.constructed.x = s.x := by simp [State.constructed]
@[simp] theorem State.constructed_y (s : State) : s.constructed.y = s.y := by simp [State.constructed]
@[simp] theorem State.constructed_flags (s : State) : s.constructed.flags = s.flags := by simp [State.constructed]
@[simp] theorem State.constructed_privRam (s : State) : s.constructed.privRam = s.privRam := by simp [State.constructed]
@[simp] theorem State.constructed_ram (s : State) : s.constructed.ram = [] := by simp [State.constructed]
@[simp] theorem State.constructed_rom (s : State) : s.constructed.rom = [] := by simp [State.constructed]
@[simp] theorem State.constructed_gpuOut (s : State) : s.constructed.gpuOut = [] := by simp [State.constructed]
@[simp] theorem State.constructed_gpuLog (s : State) : s.constructed.gpuLog = [] := by simp [State.constructed]
@[simp] theorem State.constructed_trace (s : State) : s.constructed.trace = [] := by simp [State.constructed]
@[simp] theorem State.constructed_bus (s : State) : s.constructed.bus = .idle := by simp [State.constructed]
@[simp] theorem State.constructed_life (s : State) : s.constructed.life = .ready := by simp [State.constructed]
@[simp] theorem State.constructed_units (s : State) : s.constructed.units = ⟨.idle, .idle, .idle⟩ := by simp [State.constructed]
@[simp] theorem State.constructed_cfg (s : State) : s.constructed.cfg = s.cfg := by simp [State.constructed]
@[simp] theorem State.constructed_host (s : State) : s.constructed.host = s.host := by simp [State.constructed]

/-- The state after `reset()` of the CPU completes (R284). -/
def State.afterCpuReset (s : State) : State := (s.afterReads [0xFFFC, 0xFFFD]).setPc (s.peekWord 0xFFFC)

theorem resetCpu_next {s : State} (h : s.Operational) : resetCpu s = .next s.afterCpuReset := by
  have h0 : (s.setPc 0xFFFB).Operational := h
  have h1 : ((s.setPc 0xFFFB).afterReads [0xFFFC]).Operational := by simpa using h0
  unfold resetCpu
  dsimp only
  rw [memRead_next h0, andThen_next]
  change andThen (memRead 0xFFFD ((s.setPc 0xFFFB).afterReads [0xFFFC])) _ = _
  rw [memRead_next h1]
  rfl

theorem resetCpu_inv {s t : State} (h : resetCpu s = .next t) : t = s.afterCpuReset := by
  obtain ⟨lo, h1, h⟩ := andThen_inv h
  obtain ⟨hi, h2, h⟩ := andThen_inv h
  cases memRead_inv h1
  cases memRead_inv h2
  cases h
  rfl

theorem constructSystem_next {s : State} (h : validateMap s.cfg.map = none) (hc : configFits s.cfg = true) :
    constructSystem s = .next s.constructed := by
  simp [constructSystem, h, hc, State.constructed]

theorem constructSystem_inv {s t : State} (h : constructSystem s = .next t) :
    (∃ e, validateMap s.cfg.map = some e ∧ t = s.setLife (.faulted (.configInvalid e))) ∨
    (validateMap s.cfg.map = none ∧ configFits s.cfg = true ∧ t = s.constructed) := by
  unfold constructSystem at h
  split at h
  · rename_i e he; cases h; exact .inl ⟨e, he, rfl⟩
  · rename_i he
    split at h
    · cases h; exact .inr ⟨he, ‹_›, rfl⟩
    · cases h

/-- Everything a host command can do. -/
theorem hostCommand_inv {cmd : HostCommand} {s t : State} (h : hostCommand cmd s = .next t) :
    t = s ∨ constructSystem s = .next t ∨ (∃ p, t = resetPeripheral p s) ∨ (∃ u, t = s.setUnits u) ∨
      t = s.afterCpuReset ∨ ∃ l, t = s.setLife l := by
  unfold hostCommand at h
  split at h
  · cases h; exact .inl rfl
  · exact .inr (.inl h)
  · cases h; exact .inr (.inr (.inl ⟨_, rfl⟩))
  · split at h
    · cases h
    · cases h; exact .inr (.inr (.inr (.inl ⟨_, rfl⟩)))
  · exact .inr (.inr (.inr (.inr (.inl (resetCpu_inv h)))))
  · cases h; exact .inr (.inr (.inr (.inr (.inr ⟨_, rfl⟩))))
  · cases h; exact .inr (.inr (.inr (.inr (.inr ⟨_, rfl⟩))))
  · cases h; exact .inr (.inr (.inr (.inl ⟨_, rfl⟩)))
  · cases h; exact .inr (.inr (.inr (.inl ⟨_, rfl⟩)))
  · cases h; exact .inr (.inr (.inr (.inl ⟨_, rfl⟩)))
  · cases h

/-- Every host command keeps the configuration (R34). -/
theorem hostCommand_cfg {cmd : HostCommand} {s t : State} (h : hostCommand cmd s = .next t) : t.cfg = s.cfg := by
  rcases hostCommand_inv h with rfl | h | ⟨p, rfl⟩ | ⟨u, rfl⟩ | rfl | ⟨l, rfl⟩
  · rfl
  · rcases constructSystem_inv h with ⟨e, -, rfl⟩ | ⟨-, -, rfl⟩ <;> simp
  · cases p <;> simp [resetPeripheral]
  · rfl
  · simp [State.afterCpuReset]
  · rfl

/-- The images of the reset memories are in canonical form. -/
theorem reset_memories_wf :
    State.reset.privRam.wf = true ∧ State.reset.ram.wf = true ∧ State.reset.rom.wf = true := ⟨rfl, rfl, rfl⟩

end Sys2Proof.Machine
end

