-- ==== Sys2Proof/Laws/PerInstr.lean ====
section
/-! SUPPORT. The encoded form of every instruction, one lemma for each constructor. -/

namespace Sys2Proof.Laws

/-- What the dispatch table says of an instruction: it is well formed (R106), its mnemonic and operand name it alone, its
encoding is as long as its mode says (R100, R101), and the opcode its encoding begins with is bound to its mnemonic and
mode (R104). -/
def EncodedForm.Statement (i : Instr) : Prop :=
  i.wellFormed = true ∧ (encode i).length = i.operand.length ∧ Instr.ofForm i.mnemonic i.operand = some i ∧
  ∃ op, encode i = op :: i.operand.bytes ∧ dispatch op = some (i.mnemonic, i.operand.mode)

theorem EncodedForm.brk : EncodedForm.Statement .brk := ⟨rfl, rfl, rfl, 0x00, rfl, rfl⟩
theorem EncodedForm.oraIzx (b1 : Byte) : EncodedForm.Statement (.oraIzx b1) := ⟨rfl, rfl, rfl, 0x01, rfl, rfl⟩
theorem EncodedForm.oraZp (b1 : Byte) : EncodedForm.Statement (.oraZp b1) := ⟨rfl, rfl, rfl, 0x05, rfl, rfl⟩
theorem EncodedForm.aslZp (b1 : Byte) : EncodedForm.Statement (.aslZp b1) := ⟨rfl, rfl, rfl, 0x06, rfl, rfl⟩
theorem EncodedForm.php : EncodedForm.Statement .php := ⟨rfl, rfl, rfl, 0x08, rfl, rfl⟩
theorem EncodedForm.oraImm (m : Byte) : EncodedForm.Statement (.oraImm m) := ⟨rfl, rfl, rfl, 0x09, rfl, rfl⟩
theorem EncodedForm.aslAcc : EncodedForm.Statement .aslAcc := ⟨rfl, rfl, rfl, 0x0A, rfl, rfl⟩
theorem EncodedForm.oraAbs (w : Word) : EncodedForm.Statement (.oraAbs w) := ⟨rfl, rfl, rfl, 0x0D, rfl, rfl⟩
theorem EncodedForm.aslAbs (w : Word) : EncodedForm.Statement (.aslAbs w) := ⟨rfl, rfl, rfl, 0x0E, rfl, rfl⟩
theorem EncodedForm.bpl (d : Byte) : EncodedForm.Statement (.bpl d) := ⟨rfl, rfl, rfl, 0x10, rfl, rfl⟩
theorem EncodedForm.oraIzy (b1 : Byte) : EncodedForm.Statement (.oraIzy b1) := ⟨rfl, rfl, rfl, 0x11, rfl, rfl⟩
theorem EncodedForm.oraZpx (b1 : Byte) : EncodedForm.Statement (.oraZpx b1) := ⟨rfl, rfl, rfl, 0x15, rfl, rfl⟩
theorem EncodedForm.aslZpx (b1 : Byte) : EncodedForm.Statement (.aslZpx b1) := ⟨rfl, rfl, rfl, 0x16, rfl, rfl⟩
theorem EncodedForm.clc : EncodedForm.Statement .clc := ⟨rfl, rfl, rfl, 0x18, rfl, rfl⟩
theorem EncodedForm.oraAby (w : Word) : EncodedForm.Statement (.oraAby w) := ⟨rfl, rfl, rfl, 0x19, rfl, rfl⟩
theorem EncodedForm.oraAbx (w : Word) : EncodedForm.Statement (.oraAbx w) := ⟨rfl, rfl, rfl, 0x1D, rfl, rfl⟩
theorem EncodedForm.aslAbx (w : Word) : EncodedForm.Statement (.aslAbx w) := ⟨rfl, rfl, rfl, 0x1E, rfl, rfl⟩
theorem EncodedForm.jsr (w : Word) : EncodedForm.Statement (.jsr w) := ⟨rfl, rfl, rfl, 0x20, rfl, rfl⟩
theorem EncodedForm.andIzx (b1 : Byte) : EncodedForm.Statement (.andIzx b1) := ⟨rfl, rfl, rfl, 0x21, rfl, rfl⟩
theorem EncodedForm.bitZp (b1 : Byte) : EncodedForm.Statement (.bitZp b1) := ⟨rfl, rfl, rfl, 0x24, rfl, rfl⟩
theorem EncodedForm.andZp (b1 : Byte) : EncodedForm.Statement (.andZp b1) := ⟨rfl, rfl, rfl, 0x25, rfl, rfl⟩
theorem EncodedForm.rolZp (b1 : Byte) : EncodedForm.Statement (.rolZp b1) := ⟨rfl, rfl, rfl, 0x26, rfl, rfl⟩
theorem EncodedForm.plp : EncodedForm.Statement .plp := ⟨rfl, rfl, rfl, 0x28, rfl, rfl⟩
theorem EncodedForm.andImm (m : Byte) : EncodedForm.Statement (.andImm m) := ⟨rfl, rfl, rfl, 0x29, rfl, rfl⟩
theorem EncodedForm.rolAcc : EncodedForm.Statement .rolAcc := ⟨rfl, rfl, rfl, 0x2A, rfl, rfl⟩
theorem EncodedForm.bitAbs (w : Word) : EncodedForm.Statement (.bitAbs w) := ⟨rfl, rfl, rfl, 0x2C, rfl, rfl⟩
theorem EncodedForm.andAbs (w : Word) : EncodedForm.Statement (.andAbs w) := ⟨rfl, rfl, rfl, 0x2D, rfl, rfl⟩
theorem EncodedForm.rolAbs (w : Word) : EncodedForm.Statement (.rolAbs w) := ⟨rfl, rfl, rfl, 0x2E, rfl, rfl⟩
theorem EncodedForm.bmi (d : Byte) : EncodedForm.Statement (.bmi d) := ⟨rfl, rfl, rfl, 0x30, rfl, rfl⟩
theorem EncodedForm.andIzy (b1 : Byte) : EncodedForm.Statement (.andIzy b1) := ⟨rfl, rfl, rfl, 0x31, rfl, rfl⟩
theorem EncodedForm.andZpx (b1 : Byte) : EncodedForm.Statement (.andZpx b1) := ⟨rfl, rfl, rfl, 0x35, rfl, rfl⟩
theorem EncodedForm.rolZpx (b1 : Byte) : EncodedForm.Statement (.rolZpx b1) := ⟨rfl, rfl, rfl, 0x36, rfl, rfl⟩
theorem EncodedForm.sec : EncodedForm.Statement .sec := ⟨rfl, rfl, rfl, 0x38, rfl, rfl⟩
theorem EncodedForm.andAby (w : Word) : EncodedForm.Statement (.andAby w) := ⟨rfl, rfl, rfl, 0x39, rfl, rfl⟩
theorem EncodedForm.andAbx (w : Word) : EncodedForm.Statement (.andAbx w) := ⟨rfl, rfl, rfl, 0x3D, rfl, rfl⟩
theorem EncodedForm.rolAbx (w : Word) : EncodedForm.Statement (.rolAbx w) := ⟨rfl, rfl, rfl, 0x3E, rfl, rfl⟩
theorem EncodedForm.rti : EncodedForm.Statement .rti := ⟨rfl, rfl, rfl, 0x40, rfl, rfl⟩
theorem EncodedForm.eorIzx (b1 : Byte) : EncodedForm.Statement (.eorIzx b1) := ⟨rfl, rfl, rfl, 0x41, rfl, rfl⟩
theorem EncodedForm.eorZp (b1 : Byte) : EncodedForm.Statement (.eorZp b1) := ⟨rfl, rfl, rfl, 0x45, rfl, rfl⟩
theorem EncodedForm.lsrZp (b1 : Byte) : EncodedForm.Statement (.lsrZp b1) := ⟨rfl, rfl, rfl, 0x46, rfl, rfl⟩
theorem EncodedForm.pha : EncodedForm.Statement .pha := ⟨rfl, rfl, rfl, 0x48, rfl, rfl⟩
theorem EncodedForm.eorImm (m : Byte) : EncodedForm.Statement (.eorImm m) := ⟨rfl, rfl, rfl, 0x49, rfl, rfl⟩
theorem EncodedForm.lsrAcc : EncodedForm.Statement .lsrAcc := ⟨rfl, rfl, rfl, 0x4A, rfl, rfl⟩
theorem EncodedForm.jmpAbs (w : Word) : EncodedForm.Statement (.jmpAbs w) := ⟨rfl, rfl, rfl, 0x4C, rfl, rfl⟩
theorem EncodedForm.eorAbs (w : Word) : EncodedForm.Statement (.eorAbs w) := ⟨rfl, rfl, rfl, 0x4D, rfl, rfl⟩
theorem EncodedForm.lsrAbs (w : Word) : EncodedForm.Statement (.lsrAbs w) := ⟨rfl, rfl, rfl, 0x4E, rfl, rfl⟩
theorem EncodedForm.bvc (d : Byte) : EncodedForm.Statement (.bvc d) := ⟨rfl, rfl, rfl, 0x50, rfl, rfl⟩
theorem EncodedForm.eorIzy (b1 : Byte) : EncodedForm.Statement (.eorIzy b1) := ⟨rfl, rfl, rfl, 0x51, rfl, rfl⟩
theorem EncodedForm.eorZpx (b1 : Byte) : EncodedForm.Statement (.eorZpx b1) := ⟨rfl, rfl, rfl, 0x55, rfl, rfl⟩
theorem EncodedForm.lsrZpx (b1 : Byte) : EncodedForm.Statement (.lsrZpx b1) := ⟨rfl, rfl, rfl, 0x56, rfl, rfl⟩
theorem EncodedForm.cli : EncodedForm.Statement .cli := ⟨rfl, rfl, rfl, 0x58, rfl, rfl⟩
theorem EncodedForm.eorAby (w : Word) : EncodedForm.Statement (.eorAby w) := ⟨rfl, rfl, rfl, 0x59, rfl, rfl⟩
theorem EncodedForm.eorAbx (w : Word) : EncodedForm.Statement (.eorAbx w) := ⟨rfl, rfl, rfl, 0x5D, rfl, rfl⟩
theorem EncodedForm.lsrAbx (w : Word) : EncodedForm.Statement (.lsrAbx w) := ⟨rfl, rfl, rfl, 0x5E, rfl, rfl⟩
theorem EncodedForm.rts : EncodedForm.Statement .rts := ⟨rfl, rfl, rfl, 0x60, rfl, rfl⟩
theorem EncodedForm.adcIzx (b1 : Byte) : EncodedForm.Statement (.adcIzx b1) := ⟨rfl, rfl, rfl, 0x61, rfl, rfl⟩
theorem EncodedForm.adcZp (b1 : Byte) : EncodedForm.Statement (.adcZp b1) := ⟨rfl, rfl, rfl, 0x65, rfl, rfl⟩
theorem EncodedForm.rorZp (b1 : Byte) : EncodedForm.Statement (.rorZp b1) := ⟨rfl, rfl, rfl, 0x66, rfl, rfl⟩
theorem EncodedForm.pla : EncodedForm.Statement .pla := ⟨rfl, rfl, rfl, 0x68, rfl, rfl⟩
theorem EncodedForm.adcImm (m : Byte) : EncodedForm.Statement (.adcImm m) := ⟨rfl, rfl, rfl, 0x69, rfl, rfl⟩
theorem EncodedForm.rorAcc : EncodedForm.Statement .rorAcc := ⟨rfl, rfl, rfl, 0x6A, rfl, rfl⟩
theorem EncodedForm.jmpInd (w : Word) : EncodedForm.Statement (.jmpInd w) := ⟨rfl, rfl, rfl, 0x6C, rfl, rfl⟩
theorem EncodedForm.adcAbs (w : Word) : EncodedForm.Statement (.adcAbs w) := ⟨rfl, rfl, rfl, 0x6D, rfl, rfl⟩
theorem EncodedForm.rorAbs (w : Word) : EncodedForm.Statement (.rorAbs w) := ⟨rfl, rfl, rfl, 0x6E, rfl, rfl⟩
theorem EncodedForm.bvs (d : Byte) : EncodedForm.Statement (.bvs d) := ⟨rfl, rfl, rfl, 0x70, rfl, rfl⟩
theorem EncodedForm.adcIzy (b1 : Byte) : EncodedForm.Statement (.adcIzy b1) := ⟨rfl, rfl, rfl, 0x71, rfl, rfl⟩
theorem EncodedForm.adcZpx (b1 : Byte) : EncodedForm.Statement (.adcZpx b1) := ⟨rfl, rfl, rfl, 0x75, rfl, rfl⟩
theorem EncodedForm.rorZpx (b1 : Byte) : EncodedForm.Statement (.rorZpx b1) := ⟨rfl, rfl, rfl, 0x76, rfl, rfl⟩
theorem EncodedForm.sei : EncodedForm.Statement .sei := ⟨rfl, rfl, rfl, 0x78, rfl, rfl⟩
theorem EncodedForm.adcAby (w : Word) : EncodedForm.Statement (.adcAby w) := ⟨rfl, rfl, rfl, 0x79, rfl, rfl⟩
theorem EncodedForm.adcAbx (w : Word) : EncodedForm.Statement (.adcAbx w) := ⟨rfl, rfl, rfl, 0x7D, rfl, rfl⟩
theorem EncodedForm.rorAbx (w : Word) : EncodedForm.Statement (.rorAbx w) := ⟨rfl, rfl, rfl, 0x7E, rfl, rfl⟩
theorem EncodedForm.staIzx (b1 : Byte) : EncodedForm.Statement (.staIzx b1) := ⟨rfl, rfl, rfl, 0x81, rfl, rfl⟩
theorem EncodedForm.styZp (b1 : Byte) : EncodedForm.Statement (.styZp b1) := ⟨rfl, rfl, rfl, 0x84, rfl, rfl⟩
theorem EncodedForm.staZp (b1 : Byte) : EncodedForm.Statement (.staZp b1) := ⟨rfl, rfl, rfl, 0x85, rfl, rfl⟩
theorem EncodedForm.stxZp (b1 : Byte) : EncodedForm.Statement (.stxZp b1) := ⟨rfl, rfl, rfl, 0x86, rfl, rfl⟩
theorem EncodedForm.dey : EncodedForm.Statement .dey := ⟨rfl, rfl, rfl, 0x88, rfl, rfl⟩
theorem EncodedForm.txa : EncodedForm.Statement .txa := ⟨rfl, rfl, rfl, 0x8A, rfl, rfl⟩
theorem EncodedForm.styAbs (w : Word) : EncodedForm.Statement (.styAbs w) := ⟨rfl, rfl, rfl, 0x8C, rfl, rfl⟩
theorem EncodedForm.staAbs (w : Word) : EncodedForm.Statement (.staAbs w) := ⟨rfl, rfl, rfl, 0x8D, rfl, rfl⟩
theorem EncodedForm.stxAbs (w : Word) : EncodedForm.Statement (.stxAbs w) := ⟨rfl, rfl, rfl, 0x8E, rfl, rfl⟩
theorem EncodedForm.bcc (d : Byte) : EncodedForm.Statement (.bcc d) := ⟨rfl, rfl, rfl, 0x90, rfl, rfl⟩
theorem EncodedForm.staIzy (b1 : Byte) : EncodedForm.Statement (.staIzy b1) := ⟨rfl, rfl, rfl, 0x91, rfl, rfl⟩
theorem EncodedForm.styZpx (b1 : Byte) : EncodedForm.Statement (.styZpx b1) := ⟨rfl, rfl, rfl, 0x94, rfl, rfl⟩
theorem EncodedForm.staZpx (b1 : Byte) : EncodedForm.Statement (.staZpx b1) := ⟨rfl, rfl, rfl, 0x95, rfl, rfl⟩
theorem EncodedForm.stxZpy (b1 : Byte) : EncodedForm.Statement (.stxZpy b1) := ⟨rfl, rfl, rfl, 0x96, rfl, rfl⟩
theorem EncodedForm.tya : EncodedForm.Statement .tya := ⟨rfl, rfl, rfl, 0x98, rfl, rfl⟩
theorem EncodedForm.staAby (w : Word) : EncodedForm.Statement (.staAby w) := ⟨rfl, rfl, rfl, 0x99, rfl, rfl⟩
theorem EncodedForm.txs : EncodedForm.Statement .txs := ⟨rfl, rfl, rfl, 0x9A, rfl, rfl⟩
theorem EncodedForm.staAbx (w : Word) : EncodedForm.Statement (.staAbx w) := ⟨rfl, rfl, rfl, 0x9D, rfl, rfl⟩
theorem EncodedForm.ldyImm (m : Byte) : EncodedForm.Statement (.ldyImm m) := ⟨rfl, rfl, rfl, 0xA0, rfl, rfl⟩
theorem EncodedForm.ldaIzx (b1 : Byte) : EncodedForm.Statement (.ldaIzx b1) := ⟨rfl, rfl, rfl, 0xA1, rfl, rfl⟩
theorem EncodedForm.ldxImm (m : Byte) : EncodedForm.Statement (.ldxImm m) := ⟨rfl, rfl, rfl, 0xA2, rfl, rfl⟩
theorem EncodedForm.ldyZp (b1 : Byte) : EncodedForm.Statement (.ldyZp b1) := ⟨rfl, rfl, rfl, 0xA4, rfl, rfl⟩
theorem EncodedForm.ldaZp (b1 : Byte) : EncodedForm.Statement (.ldaZp b1) := ⟨rfl, rfl, rfl, 0xA5, rfl, rfl⟩
theorem EncodedForm.ldxZp (b1 : Byte) : EncodedForm.Statement (.ldxZp b1) := ⟨rfl, rfl, rfl, 0xA6, rfl, rfl⟩
theorem EncodedForm.tay : EncodedForm.Statement .tay := ⟨rfl, rfl, rfl, 0xA8, rfl, rfl⟩
theorem EncodedForm.ldaImm (m : Byte) : EncodedForm.Statement (.ldaImm m) := ⟨rfl, rfl, rfl, 0xA9, rfl, rfl⟩
theorem EncodedForm.tax : EncodedForm.Statement .tax := ⟨rfl, rfl, rfl, 0xAA, rfl, rfl⟩
theorem EncodedForm.ldyAbs (w : Word) : EncodedForm.Statement (.ldyAbs w) := ⟨rfl, rfl, rfl, 0xAC, rfl, rfl⟩
theorem EncodedForm.ldaAbs (w : Word) : EncodedForm.Statement (.ldaAbs w) := ⟨rfl, rfl, rfl, 0xAD, rfl, rfl⟩
theorem EncodedForm.ldxAbs (w : Word) : EncodedForm.Statement (.ldxAbs w) := ⟨rfl, rfl, rfl, 0xAE, rfl, rfl⟩
theorem EncodedForm.bcs (d : Byte) : EncodedForm.Statement (.bcs d) := ⟨rfl, rfl, rfl, 0xB0, rfl, rfl⟩
theorem EncodedForm.ldaIzy (b1 : Byte) : EncodedForm.Statement (.ldaIzy b1) := ⟨rfl, rfl, rfl, 0xB1, rfl, rfl⟩
theorem EncodedForm.ldyZpx (b1 : Byte) : EncodedForm.Statement (.ldyZpx b1) := ⟨rfl, rfl, rfl, 0xB4, rfl, rfl⟩
theorem EncodedForm.ldaZpx (b1 : Byte) : EncodedForm.Statement (.ldaZpx b1) := ⟨rfl, rfl, rfl, 0xB5, rfl, rfl⟩
theorem EncodedForm.ldxZpy (b1 : Byte) : EncodedForm.Statement (.ldxZpy b1) := ⟨rfl, rfl, rfl, 0xB6, rfl, rfl⟩
theorem EncodedForm.clv : EncodedForm.Statement .clv := ⟨rfl, rfl, rfl, 0xB8, rfl, rfl⟩
theorem EncodedForm.ldaAby (w : Word) : EncodedForm.Statement (.ldaAby w) := ⟨rfl, rfl, rfl, 0xB9, rfl, rfl⟩
theorem EncodedForm.tsx : EncodedForm.Statement .tsx := ⟨rfl, rfl, rfl, 0xBA, rfl, rfl⟩
theorem EncodedForm.ldyAbx (w : Word) : EncodedForm.Statement (.ldyAbx w) := ⟨rfl, rfl, rfl, 0xBC, rfl, rfl⟩
theorem EncodedForm.ldaAbx (w : Word) : EncodedForm.Statement (.ldaAbx w) := ⟨rfl, rfl, rfl, 0xBD, rfl, rfl⟩
theorem EncodedForm.ldxAby (w : Word) : EncodedForm.Statement (.ldxAby w) := ⟨rfl, rfl, rfl, 0xBE, rfl, rfl⟩
theorem EncodedForm.cpyImm (m : Byte) : EncodedForm.Statement (.cpyImm m) := ⟨rfl, rfl, rfl, 0xC0, rfl, rfl⟩
theorem EncodedForm.cmpIzx (b1 : Byte) : EncodedForm.Statement (.cmpIzx b1) := ⟨rfl, rfl, rfl, 0xC1, rfl, rfl⟩
theorem EncodedForm.cpyZp (b1 : Byte) : EncodedForm.Statement (.cpyZp b1) := ⟨rfl, rfl, rfl, 0xC4, rfl, rfl⟩
theorem EncodedForm.cmpZp (b1 : Byte) : EncodedForm.Statement (.cmpZp b1) := ⟨rfl, rfl, rfl, 0xC5, rfl, rfl⟩
theorem EncodedForm.decZp (b1 : Byte) : EncodedForm.Statement (.decZp b1) := ⟨rfl, rfl, rfl, 0xC6, rfl, rfl⟩
theorem EncodedForm.iny : EncodedForm.Statement .iny := ⟨rfl, rfl, rfl, 0xC8, rfl, rfl⟩
theorem EncodedForm.cmpImm (m : Byte) : EncodedForm.Statement (.cmpImm m) := ⟨rfl, rfl, rfl, 0xC9, rfl, rfl⟩
theorem EncodedForm.dex : EncodedForm.Statement .dex := ⟨rfl, rfl, rfl, 0xCA, rfl, rfl⟩
theorem EncodedForm.cpyAbs (w : Word) : EncodedForm.Statement (.cpyAbs w) := ⟨rfl, rfl, rfl, 0xCC, rfl, rfl⟩
theorem EncodedForm.cmpAbs (w : Word) : EncodedForm.Statement (.cmpAbs w) := ⟨rfl, rfl, rfl, 0xCD, rfl, rfl⟩
theorem EncodedForm.decAbs (w : Word) : EncodedForm.Statement (.decAbs w) := ⟨rfl, rfl, rfl, 0xCE, rfl, rfl⟩
theorem EncodedForm.bne (d : Byte) : EncodedForm.Statement (.bne d) := ⟨rfl, rfl, rfl, 0xD0, rfl, rfl⟩
theorem EncodedForm.cmpIzy (b1 : Byte) : EncodedForm.Statement (.cmpIzy b1) := ⟨rfl, rfl, rfl, 0xD1, rfl, rfl⟩
theorem EncodedForm.cmpZpx (b1 : Byte) : EncodedForm.Statement (.cmpZpx b1) := ⟨rfl, rfl, rfl, 0xD5, rfl, rfl⟩
theorem EncodedForm.decZpx (b1 : Byte) : EncodedForm.Statement (.decZpx b1) := ⟨rfl, rfl, rfl, 0xD6, rfl, rfl⟩
theorem EncodedForm.cld : EncodedForm.Statement .cld := ⟨rfl, rfl, rfl, 0xD8, rfl, rfl⟩
theorem EncodedForm.cmpAby (w : Word) : EncodedForm.Statement (.cmpAby w) := ⟨rfl, rfl, rfl, 0xD9, rfl, rfl⟩
theorem EncodedForm.cmpAbx (w : Word) : EncodedForm.Statement (.cmpAbx w) := ⟨rfl, rfl, rfl, 0xDD, rfl, rfl⟩
theorem EncodedForm.decAbx (w : Word) : EncodedForm.Statement (.decAbx w) := ⟨rfl, rfl, rfl, 0xDE, rfl, rfl⟩
theorem EncodedForm.cpxImm (m : Byte) : EncodedForm.Statement (.cpxImm m) := ⟨rfl, rfl, rfl, 0xE0, rfl, rfl⟩
theorem EncodedForm.sbcIzx (b1 : Byte) : EncodedForm.Statement (.sbcIzx b1) := ⟨rfl, rfl, rfl, 0xE1, rfl, rfl⟩
theorem EncodedForm.cpxZp (b1 : Byte) : EncodedForm.Statement (.cpxZp b1) := ⟨rfl, rfl, rfl, 0xE4, rfl, rfl⟩
theorem EncodedForm.sbcZp (b1 : Byte) : EncodedForm.Statement (.sbcZp b1) := ⟨rfl, rfl, rfl, 0xE5, rfl, rfl⟩
theorem EncodedForm.incZp (b1 : Byte) : EncodedForm.Statement (.incZp b1) := ⟨rfl, rfl, rfl, 0xE6, rfl, rfl⟩
theorem EncodedForm.inx : EncodedForm.Statement .inx := ⟨rfl, rfl, rfl, 0xE8, rfl, rfl⟩
theorem EncodedForm.sbcImm (m : Byte) : EncodedForm.Statement (.sbcImm m) := ⟨rfl, rfl, rfl, 0xE9, rfl, rfl⟩
theorem EncodedForm.nop : EncodedForm.Statement .nop := ⟨rfl, rfl, rfl, 0xEA, rfl, rfl⟩
theorem EncodedForm.cpxAbs (w : Word) : EncodedForm.Statement (.cpxAbs w) := ⟨rfl, rfl, rfl, 0xEC, rfl, rfl⟩
theorem EncodedForm.sbcAbs (w : Word) : EncodedForm.Statement (.sbcAbs w) := ⟨rfl, rfl, rfl, 0xED, rfl, rfl⟩
theorem EncodedForm.incAbs (w : Word) : EncodedForm.Statement (.incAbs w) := ⟨rfl, rfl, rfl, 0xEE, rfl, rfl⟩
theorem EncodedForm.beq (d : Byte) : EncodedForm.Statement (.beq d) := ⟨rfl, rfl, rfl, 0xF0, rfl, rfl⟩
theorem EncodedForm.sbcIzy (b1 : Byte) : EncodedForm.Statement (.sbcIzy b1) := ⟨rfl, rfl, rfl, 0xF1, rfl, rfl⟩
theorem EncodedForm.sbcZpx (b1 : Byte) : EncodedForm.Statement (.sbcZpx b1) := ⟨rfl, rfl, rfl, 0xF5, rfl, rfl⟩
theorem EncodedForm.incZpx (b1 : Byte) : EncodedForm.Statement (.incZpx b1) := ⟨rfl, rfl, rfl, 0xF6, rfl, rfl⟩
theorem EncodedForm.sed : EncodedForm.Statement .sed := ⟨rfl, rfl, rfl, 0xF8, rfl, rfl⟩
theorem EncodedForm.sbcAby (w : Word) : EncodedForm.Statement (.sbcAby w) := ⟨rfl, rfl, rfl, 0xF9, rfl, rfl⟩
theorem EncodedForm.sbcAbx (w : Word) : EncodedForm.Statement (.sbcAbx w) := ⟨rfl, rfl, rfl, 0xFD, rfl, rfl⟩
theorem EncodedForm.incAbx (w : Word) : EncodedForm.Statement (.incAbx w) := ⟨rfl, rfl, rfl, 0xFE, rfl, rfl⟩

end Sys2Proof.Laws
end

