-- ==== Sys2Proof/Tests/Slice0.lean ====
section
/-! SUPPORT. The model's own tests. Expected values come from the spec: spec/95_test_vectors.md and the encodings of
spec/30_encoding.md, as each test names. The `witness_` theorems show states and operands that meet the hypotheses of
the statements. -/

namespace Sys2Proof.Machine.Tests

/-! ## Helpers -/

/-- The start of the single-instruction vectors: default map, `PHP_BIT5 = 1`, `ZP_PTR_WRAP = false`, `PC = 0x4020`. -/
def base : State := { State.reset with pc := 0x4020, cfg := { State.reset.cfg with phpBit5 := true } }

/-- `s` with an instruction at its `PC` and bytes of memory set. -/
def placed (s : State) (bytes : List Byte) (mem : List (Word × Byte)) : State :=
  mem.foldl (fun t p => t.placeByte p.1 p.2) (s.placeBytes s.pc bytes)

/-- One step from there gives a next state that passes the check. -/
def gives (s : State) (bytes : List Byte) (mem : List (Word × Byte)) (check : State → Bool) : Bool :=
  match step (placed s bytes mem) with
  | .next t => check t
  | .fault _ => false
  | .refused _ => false

/-- A step gives a next state. -/
def goesOn (r : Ending) : Bool :=
  match r with
  | .next _ => true
  | .fault _ => false
  | .refused _ => false

/-! ## Well-formedness: each check refuses an ill-formed term -/

/-- No STA Immediate (R104, R106). -/
theorem test_wf_store_immediate : Mnemonic.sta.supports (.immediate 0x41) = false := by decide

/-- No ASL Implied: Accumulator is a mode of its own (R133). -/
theorem test_wf_shift_implied : Mnemonic.asl.supports .implied = false := by decide

/-- No LDX ZeroPageX and no STX ZeroPageX. -/
theorem test_wf_ldx_zpx :
    Mnemonic.ldx.supports (.memory (.zeroPageX 0)) = false ∧ Mnemonic.stx.supports (.memory (.zeroPageX 0)) = false := by
  decide

/-- No LDA Indirect, no JMP IndirectX, no BEQ Absolute, no INX Accumulator. -/
theorem test_wf_others :
    Mnemonic.lda.supports (.memory (.indirect 0)) = false ∧ Mnemonic.jmp.supports (.memory (.indirectX 0)) = false ∧
    Mnemonic.beq.supports (.memory (.absolute 0)) = false ∧ Mnemonic.inx.supports .accumulator = false := by decide

/-- The mapping tables of 95_test_vectors.md 2.2 that are invalid. -/
theorem test_map_invalid :
    validateMap [] = some .missingPrivRam ∧
    validateMap [⟨0, 0, 0x2000, .ram⟩, ⟨0x2000, 0, 0x2000, .privRam⟩] = some .missingPrivRam ∧
    validateMap [⟨0, 0, 0x1000, .privRam⟩, ⟨0x1000, 0x1000, 0x1000, .privRam⟩] = some (.duplicatePrivRam 1) ∧
    validateMap [⟨0, 0, 0x2000, .privRam⟩, ⟨0x1FFF, 0, 0x10, .ram⟩] = some (.overlap 0 1) ∧
    validateMap [⟨0, 0, 0x2000, .privRam⟩, ⟨0x2000, 0, 0x10, .ram⟩, ⟨0x200F, 0, 1, .rom⟩] = some (.overlap 1 2) := by
  decide

/-- The mapping tables of 95_test_vectors.md 2.2 that are valid. -/
theorem test_map_valid :
    validateMap defaultMap = none ∧ validateMap [⟨0, 0, 0x2000, .privRam⟩] = none ∧
    validateMap [⟨0, 0, 0x2000, .privRam⟩, ⟨0x2000, 0, 0x10, .ram⟩, ⟨0x2010, 0x10, 0x10, .ram⟩] = none ∧
    validateMap [⟨0, 0, 0x2000, .privRam⟩, ⟨0xFFF0, 0, 0x20, .rom⟩] = none ∧
    validateMap [⟨0, 0, 0x2000, .privRam⟩, ⟨0x3000, 0, 0, .ram⟩] = none := by decide

/-- A window larger than its store is refused (R78). -/
theorem test_config_outside : configFits { defaultConfig with romCap := 0xBFDF } = false := by decide

/-! ## Decoding: words written out from the encodings of 30_encoding.md -/

/-- Arithmetic: `ADC #$50` is 0110 1001, 0101 0000. -/
theorem test_decode_adc : decode [0b01101001, 0b01010000] = .ok (.adcImm 0x50, []) := rfl

/-- Shift: `ROR $2000,X` is 0111 1110, low byte 0000 0000, high byte 0010 0000. -/
theorem test_decode_ror : decode [0b01111110, 0b00000000, 0b00100000] = .ok (.rorAbx 0x2000, []) := rfl

/-- Shift: `LSR A` is 0100 1010. -/
theorem test_decode_lsr : decode [0b01001010] = .ok (.lsrAcc, []) := rfl

/-- Logic: `EOR ($20),Y` is 0101 0001, 0010 0000. -/
theorem test_decode_eor : decode [0b01010001, 0b00100000] = .ok (.eorIzy 0x20, []) := rfl

/-- Load: `LDX $10,Y` is 1011 0110, 0001 0000. -/
theorem test_decode_ldx : decode [0b10110110, 0b00010000] = .ok (.ldxZpy 0x10, []) := rfl

/-- Store: `STA $4000` is 1000 1101, 0000 0000, 0100 0000. -/
theorem test_decode_sta : decode [0b10001101, 0b00000000, 0b01000000] = .ok (.staAbs 0x4000, []) := rfl

/-- Transfer: `TXS` is 1001 1010. -/
theorem test_decode_txs : decode [0b10011010] = .ok (.txs, []) := rfl

/-- Stack and subroutine: `PHP` is 0000 1000; `JSR $4030` is 0010 0000, 0011 0000, 0100 0000. -/
theorem test_decode_stack :
    decode [0b00001000] = .ok (.php, []) ∧ decode [0b00100000, 0b00110000, 0b01000000] = .ok (.jsr 0x4030, []) :=
  ⟨rfl, rfl⟩

/-- Branch: `BVS` by -5 is 0111 0000, 1111 1011, and the byte after it is left over. -/
theorem test_decode_bvs : decode [0b01110000, 0b11111011, 0xEA] = .ok (.bvs 0xFB, [0xEA]) := rfl

/-- Jump: `JMP ($20FF)` is 0110 1100, 1111 1111, 0010 0000. -/
theorem test_decode_jmp : decode [0b01101100, 0b11111111, 0b00100000] = .ok (.jmpInd 0x20FF, []) := rfl

/-- Flags: `CLV` is 1011 1000. -/
theorem test_decode_clv : decode [0b10111000] = .ok (.clv, []) := rfl

/-- Refused by name: no byte, a missing operand byte, an illegal opcode (R100, R108). -/
theorem test_decode_refused :
    decode [] = .error .truncated ∧ decode [0xAD, 0x00] = .error .truncated ∧
    decode [0xEB, 0x00] = .error (.illegalOpcode 0xEB) := ⟨rfl, rfl, rfl⟩

/-- The table's numbering: bit 0 is the least significant bit of the first byte. -/
theorem test_decodeTableWord :
    decodeTableWord 24 0x40008D = some (.staAbs 0x4000) ∧ decodeTableWord 8 0x8D = some (.staAbs 0) := by decide +kernel

/-- Every legal opcode decodes from the table's word, and no illegal one. -/
theorem test_decodeTableWord_all :
    ∀ op : Byte, (decodeTableWord 8 op.toNat).isSome = true ↔ op ∉ illegalOpcodes := by decide +kernel

/-- Every legal opcode runs as the first instruction after reset. -/
theorem test_first_step_all :
    ∀ op : Byte, goesOn (step (State.reset.withFetchWord 8 op.toNat)) = true ↔ op ∉ illegalOpcodes := by
  decide +kernel

/-! ## One step: the vectors of 95_test_vectors.md -/

/-- 95_test_vectors.md 2.3: IMM. -/
theorem test_mode_imm :
    gives base [0xA9, 0x80] [] (fun t => t.a = 0x80 ∧ t.pc = 0x4022 ∧ t.flags.z = false ∧ t.flags.n = true)
      := by decide

/-- 95_test_vectors.md 2.3: ZP. -/
theorem test_mode_zp :
    gives base [0xA5, 0x10] [(0x0010, 0x00)] (fun t => t.a = 0x00 ∧ t.pc = 0x4022 ∧ t.flags.z = true ∧
      t.flags.n = false) := by decide

/-- 95_test_vectors.md 2.3: ZPX wrap (S4). -/
theorem test_mode_zpx_wrap_s4 :
    gives { base with x := 0x02 } [0xB5, 0xFF] [(0x0001, 0x77), (0x0101, 0x99)] (fun t => t.a = 0x77 ∧
      t.pc = 0x4022) := by decide

/-- 95_test_vectors.md 2.3: ZPY wrap. -/
theorem test_mode_zpy_wrap :
    gives { base with y := 0x80 } [0xB6, 0x90] [(0x0010, 0x44)] (fun t => t.x = 0x44 ∧ t.pc = 0x4022) := by decide

/-- 95_test_vectors.md 2.3: ABX wrap at top. -/
theorem test_mode_abx_wrap_at_top :
    gives { base with x := 0x02 } [0xBD, 0xFF, 0xFF] [(0x0001, 0x21)] (fun t => t.a = 0x21 ∧ t.pc = 0x4023)
      := by decide

/-- 95_test_vectors.md 2.3: ABY. -/
theorem test_mode_aby :
    gives { base with y := 0x10 } [0xB9, 0x00, 0x20] [(0x2010, 0x42)] (fun t => t.a = 0x42 ∧ t.pc = 0x4023)
      := by decide

/-- 95_test_vectors.md 2.3: IZX index wrap. -/
theorem test_mode_izx_index_wrap :
    gives { base with x := 0x05 } [0xA1, 0xFE] [(0x0003, 0x00), (0x0004, 0x20), (0x2000, 0x11)] (fun t => t.a = 0x11
      ∧ t.pc = 0x4022) := by decide

/-- 95_test_vectors.md 2.3: IZX zp=FF, ZP_PTR_WRAP=false. -/
theorem test_mode_izx_zp_ff_zp_ptr_wrap_false :
    gives { base with x := 0x00 } [0xA1, 0xFF] [(0x00FF, 0x00), (0x0100, 0x20), (0x0000, 0x10), (0x2000, 0xAA)] (fun
      t => t.a = 0xAA ∧ t.pc = 0x4022) := by decide

/-- 95_test_vectors.md 2.3: IZX zp=FF, ZP_PTR_WRAP=true. -/
theorem test_mode_izx_zp_ff_zp_ptr_wrap_true :
    gives { base with x := 0x00, cfg := { base.cfg with zpPtrWrap := true } } [0xA1, 0xFF] [(0x00FF, 0x00), (0x0100,
      0x20), (0x0000, 0x10), (0x1000, 0xBB), (0x2000, 0xAA)] (fun t => t.a = 0xBB ∧ t.pc = 0x4022) := by decide

/-- 95_test_vectors.md 2.3: IZY. -/
theorem test_mode_izy :
    gives { base with y := 0x03 } [0xB1, 0x20] [(0x0020, 0xFE), (0x0021, 0x20), (0x2101, 0x5C)] (fun t => t.a = 0x5C
      ∧ t.pc = 0x4022) := by decide

/-- 95_test_vectors.md 2.3: IZY wrap at top. -/
theorem test_mode_izy_wrap_at_top :
    gives { base with y := 0x02 } [0xB1, 0x20] [(0x0020, 0xFF), (0x0021, 0xFF), (0x0001, 0x3C)] (fun t => t.a = 0x3C
      ∧ t.pc = 0x4022) := by decide

/-- 95_test_vectors.md 2.3: STA IZY to GPU. -/
theorem test_mode_sta_izy_to_gpu :
    gives { base with a := 0x48, y := 0x00 } [0x91, 0x20] [(0x0020, 0x00), (0x0021, 0x40)] (fun t => t.pc = 0x4022 ∧
      t.gpuOut = [0x48]) := by decide

/-- 95_test_vectors.md 2.3: JMP IND. -/
theorem test_mode_jmp_ind :
    gives base [0x6C, 0x00, 0x20] [(0x2000, 0x34), (0x2001, 0x12)] (fun t => t.pc = 0x1234) := by decide

/-- 95_test_vectors.md 2.3: JMP IND at page end. -/
theorem test_mode_jmp_ind_at_page_end :
    gives base [0x6C, 0xFF, 0x20] [(0x20FF, 0x34), (0x2100, 0x12), (0x2000, 0x99)] (fun t => t.pc = 0x1234)
      := by decide

/-- 95_test_vectors.md 2.3: LDA unmapped. -/
theorem test_mode_lda_unmapped :
    gives { base with a := 0x55 } [0xAD, 0xE0, 0x3F] [] (fun t => t.a = 0x00 ∧ t.pc = 0x4023 ∧ t.flags.z = true ∧
      t.flags.n = false) := by decide

/-- 95_test_vectors.md 2.4: ADC. -/
theorem test_adc_1 :
    gives { base with a := 0x50, flags := { base.flags with c := false } } [0x69, 0x50] [] (fun t => t.a = 0xA0 ∧
      t.flags.c = false ∧ t.flags.z = false ∧ t.flags.v = true ∧ t.flags.n = true) := by decide

/-- 95_test_vectors.md 2.4: ADC. -/
theorem test_adc_2 :
    gives { base with a := 0x7F, flags := { base.flags with c := true } } [0x69, 0x00] [] (fun t => t.a = 0x80 ∧
      t.flags.c = false ∧ t.flags.z = false ∧ t.flags.v = true ∧ t.flags.n = true) := by decide

/-- 95_test_vectors.md 2.4: SBC. -/
theorem test_sbc_1 :
    gives { base with a := 0x00, flags := { base.flags with c := false } } [0xE9, 0x00] [] (fun t => t.a = 0xFF ∧
      t.flags.c = false ∧ t.flags.z = false ∧ t.flags.v = false ∧ t.flags.n = true) := by decide

/-- 95_test_vectors.md 2.4: SBC. -/
theorem test_sbc_2 :
    gives { base with a := 0x80, flags := { base.flags with c := false } } [0xE9, 0x00] [] (fun t => t.a = 0x7F ∧
      t.flags.c = true ∧ t.flags.z = false ∧ t.flags.v = true ∧ t.flags.n = false) := by decide

/-- 95_test_vectors.md 2.4: CMP. -/
theorem test_cmp_1 :
    gives { base with a := 0x00, flags := { base.flags with v := true, c := false } } [0xC9, 0xFF] [] (fun t =>
      t.a = 0x00 ∧ t.flags.c = false ∧ t.flags.z = false ∧ t.flags.v = true ∧ t.flags.n = false) := by decide

/-- 95_test_vectors.md 2.4: CMP. -/
theorem test_cmp_2 :
    gives { base with a := 0x00, flags := { base.flags with v := true, c := false } } [0xC9, 0x80] [] (fun t =>
      t.a = 0x00 ∧ t.flags.c = false ∧ t.flags.z = false ∧ t.flags.v = true ∧ t.flags.n = true) := by decide

/-- 95_test_vectors.md 2.4: CPX. -/
theorem test_cpx :
    gives { base with x := 0x0F } [0xE0, 0x10] [] (fun t => t.x = 0x0F ∧ t.flags.c = false ∧ t.flags.z = false ∧
      t.flags.n = true) := by decide

/-- 95_test_vectors.md 2.4: CPY. -/
theorem test_cpy_1 :
    gives { base with y := 0x01 } [0xC0, 0x02] [] (fun t => t.y = 0x01 ∧ t.flags.c = false ∧ t.flags.z = false ∧
      t.flags.n = true) := by decide

/-- 95_test_vectors.md 2.4: CPY zp. -/
theorem test_cpy_2 :
    gives { base with y := 0x80 } [0xC4, 0x10] [(0x0010, 0x7F)] (fun t => t.y = 0x80 ∧ t.flags.c = true ∧
      t.flags.z = false ∧ t.flags.n = false) := by decide

/-- 95_test_vectors.md 2.5: ASL A. -/
theorem test_asl_1 :
    gives { base with a := 0x80, flags := { base.flags with c := false } } [0x0A] [] (fun t => t.a = 0x00 ∧
      t.flags.c = true ∧ t.flags.z = true ∧ t.flags.n = false) := by decide

/-- 95_test_vectors.md 2.5: ASL on ROM. -/
theorem test_asl_2 :
    gives { base with flags := { base.flags with c := false } } [0x0E, 0x30, 0x40] [(0x4030, 0x81)] (fun t =>
      t.flags.c = true ∧ t.flags.z = false ∧ t.flags.n = false ∧ t.peek 0x4030 = 0x81 ∧ t.trace.head? = some
      (.romWrite 0x4030 0x02)) := by decide

/-- 95_test_vectors.md 2.5: LSR A. -/
theorem test_lsr_1 :
    gives { base with a := 0x01, flags := { base.flags with c := false } } [0x4A] [] (fun t => t.a = 0x00 ∧
      t.flags.c = true ∧ t.flags.z = true ∧ t.flags.n = false) := by decide

/-- 95_test_vectors.md 2.5: LSR abs (RAM). -/
theorem test_lsr_2 :
    gives { base with flags := { base.flags with c := false } } [0x4E, 0x00, 0x20] [(0x2000, 0x01)] (fun t =>
      t.pc = 0x4023 ∧ t.flags.c = true ∧ t.flags.z = true ∧ t.flags.n = false ∧ t.peek 0x2000 = 0x00) := by decide

/-- 95_test_vectors.md 2.5: ROL A. -/
theorem test_rol_1 :
    gives { base with a := 0x80, flags := { base.flags with c := true } } [0x2A] [] (fun t => t.a = 0x01 ∧
      t.flags.c = true ∧ t.flags.z = false ∧ t.flags.n = false) := by decide

/-- 95_test_vectors.md 2.5: ROL on GPU register. -/
theorem test_rol_2 :
    gives { base with flags := { base.flags with c := true } } [0x2E, 0x00, 0x40] [] (fun t => t.flags.c = false ∧
      t.flags.z = false ∧ t.flags.n = false ∧ t.gpuOut = [0x01]) := by decide

/-- 95_test_vectors.md 2.5: ROR A. -/
theorem test_ror_1 :
    gives { base with a := 0x01, flags := { base.flags with c := true } } [0x6A] [] (fun t => t.a = 0x80 ∧
      t.flags.c = true ∧ t.flags.z = false ∧ t.flags.n = true) := by decide

/-- 95_test_vectors.md 2.5: ROR abx. -/
theorem test_ror_2 :
    gives { base with x := 0x02, flags := { base.flags with c := true } } [0x7E, 0x00, 0x20] [(0x2002, 0x00)] (fun t
      => t.flags.c = false ∧ t.flags.z = false ∧ t.flags.n = true ∧ t.peek 0x2002 = 0x80) := by decide

/-- 95_test_vectors.md 2.6: AND. -/
theorem test_and :
    gives { base with a := 0xCC } [0x29, 0xAA] [] (fun t => t.a = 0x88 ∧ t.flags.z = false ∧ t.flags.n = true)
      := by decide

/-- 95_test_vectors.md 2.6: ORA. -/
theorem test_ora :
    gives { base with a := 0x0F } [0x09, 0xF0] [] (fun t => t.a = 0xFF ∧ t.flags.z = false ∧ t.flags.n = true)
      := by decide

/-- 95_test_vectors.md 2.6: EOR. -/
theorem test_eor :
    gives { base with a := 0x5A } [0x49, 0x5A] [] (fun t => t.a = 0x00 ∧ t.flags.z = true ∧ t.flags.n = false)
      := by decide

/-- 95_test_vectors.md 2.6: BIT zp. -/
theorem test_bit_1 :
    gives { base with a := 0x01, flags := { base.flags with v := false, c := true } } [0x24, 0x10] [(0x0010, 0xC0)]
      (fun t => t.a = 0x01 ∧ t.flags.c = true ∧ t.flags.z = true ∧ t.flags.v = true ∧ t.flags.n = true) := by decide

/-- 95_test_vectors.md 2.6: BIT zp. -/
theorem test_bit_2 :
    gives { base with a := 0xFF, flags := { base.flags with v := true } } [0x24, 0x10] [(0x0010, 0x3F)] (fun t =>
      t.flags.z = false ∧ t.flags.v = false ∧ t.flags.n = false) := by decide

/-- 95_test_vectors.md 2.6: INC zp. -/
theorem test_inc_1 :
    gives base [0xE6, 0x10] [(0x0010, 0xFF)] (fun t => t.flags.z = true ∧ t.flags.n = false ∧ t.peek 0x0010 = 0x00)
      := by decide

/-- 95_test_vectors.md 2.6: INC zp. -/
theorem test_inc_2 :
    gives { base with flags := { base.flags with c := true, v := true } } [0xE6, 0x10] [(0x0010, 0x7F)] (fun t =>
      t.flags.c = true ∧ t.flags.z = false ∧ t.flags.v = true ∧ t.flags.n = true ∧ t.peek 0x0010 = 0x80) := by decide

/-- 95_test_vectors.md 2.6: DEC zp. -/
theorem test_dec_1 :
    gives base [0xC6, 0x10] [(0x0010, 0x00)] (fun t => t.flags.z = false ∧ t.flags.n = true ∧ t.peek 0x0010 = 0xFF)
      := by decide

/-- 95_test_vectors.md 2.6: DEC abs. -/
theorem test_dec_2 :
    gives base [0xCE, 0x00, 0x20] [(0x2000, 0x01)] (fun t => t.flags.z = true ∧ t.flags.n = false ∧ t.peek
      0x2000 = 0x00) := by decide

/-- 95_test_vectors.md 2.6: INX. -/
theorem test_inx :
    gives { base with x := 0xFF } [0xE8] [] (fun t => t.x = 0x00 ∧ t.flags.z = true ∧ t.flags.n = false)
      := by decide

/-- 95_test_vectors.md 2.6: INY. -/
theorem test_iny :
    gives { base with y := 0x7F } [0xC8] [] (fun t => t.y = 0x80 ∧ t.flags.z = false ∧ t.flags.n = true)
      := by decide

/-- 95_test_vectors.md 2.6: DEX. -/
theorem test_dex :
    gives { base with x := 0x00 } [0xCA] [] (fun t => t.x = 0xFF ∧ t.flags.z = false ∧ t.flags.n = true)
      := by decide

/-- 95_test_vectors.md 2.6: DEY. -/
theorem test_dey :
    gives { base with y := 0x01 } [0x88] [] (fun t => t.y = 0x00 ∧ t.flags.z = true ∧ t.flags.n = false)
      := by decide

/-- 95_test_vectors.md 2.7: LDA #. -/
theorem test_lda_1 :
    gives base [0xA9, 0x41] [] (fun t => t.a = 0x41 ∧ t.pc = 0x4022 ∧ t.flags.z = false ∧ t.flags.n = false)
      := by decide

/-- 95_test_vectors.md 2.7: LDA #. -/
theorem test_lda_2 :
    gives { base with a := 0x01 } [0xA9, 0x00] [] (fun t => t.a = 0x00 ∧ t.flags.z = true ∧ t.flags.n = false)
      := by decide

/-- 95_test_vectors.md 2.7: LDX #. -/
theorem test_ldx :
    gives base [0xA2, 0xFF] [] (fun t => t.x = 0xFF ∧ t.flags.z = false ∧ t.flags.n = true) := by decide

/-- 95_test_vectors.md 2.7: LDY #. -/
theorem test_ldy :
    gives { base with y := 0x09 } [0xA0, 0x00] [] (fun t => t.y = 0x00 ∧ t.flags.z = true ∧ t.flags.n = false)
      := by decide

/-- 95_test_vectors.md 2.7: STA abs GPU. -/
theorem test_sta_1 :
    gives { base with a := 0x41 } [0x8D, 0x00, 0x40] [] (fun t => t.pc = 0x4023 ∧ t.gpuOut = [0x41]) := by decide

/-- 95_test_vectors.md 2.7: STA to ROM. -/
theorem test_sta_2 :
    gives { base with a := 0x41 } [0x8D, 0x30, 0x40] [] (fun t => t.pc = 0x4023 ∧ t.peek 0x4030 = 0x00 ∧
      t.trace.head? = some (.romWrite 0x4030 0x41)) := by decide

/-- 95_test_vectors.md 2.7: STX zpy. -/
theorem test_stx :
    gives { base with x := 0x07, y := 0xFF } [0x96, 0x11] [] (fun t => t.pc = 0x4022 ∧ t.peek 0x0010 = 0x07)
      := by decide

/-- 95_test_vectors.md 2.7: STY abs. -/
theorem test_sty :
    gives { base with y := 0x09 } [0x8C, 0x00, 0x20] [] (fun t => t.pc = 0x4023 ∧ t.peek 0x2000 = 0x09) := by decide

/-- 95_test_vectors.md 2.7: TAX. -/
theorem test_tax :
    gives { base with a := 0x80 } [0xAA] [] (fun t => t.x = 0x80 ∧ t.flags.z = false ∧ t.flags.n = true)
      := by decide

/-- 95_test_vectors.md 2.7: TAY. -/
theorem test_tay :
    gives { base with a := 0x00, y := 0x05 } [0xA8] [] (fun t => t.y = 0x00 ∧ t.flags.z = true ∧ t.flags.n = false)
      := by decide

/-- 95_test_vectors.md 2.7: TXA. -/
theorem test_txa :
    gives { base with x := 0xFF } [0x8A] [] (fun t => t.a = 0xFF ∧ t.flags.z = false ∧ t.flags.n = true)
      := by decide

/-- 95_test_vectors.md 2.7: TYA. -/
theorem test_tya :
    gives { base with y := 0x01 } [0x98] [] (fun t => t.a = 0x01 ∧ t.flags.z = false ∧ t.flags.n = false)
      := by decide

/-- 95_test_vectors.md 2.7: TSX. -/
theorem test_tsx :
    gives { base with sp := 0xFD } [0xBA] [] (fun t => t.x = 0xFD ∧ t.flags.z = false ∧ t.flags.n = true)
      := by decide

/-- 95_test_vectors.md 2.7: TXS. -/
theorem test_txs :
    gives { base with x := 0x00, sp := 0x55, flags := { base.flags with z := false, n := true } } [0x9A] [] (fun t
      => t.sp = 0x00 ∧ t.flags.z = false ∧ t.flags.n = true) := by decide

/-- 95_test_vectors.md 2.8: PHA wrap. -/
theorem test_pha :
    gives { base with a := 0x42, sp := 0x00 } [0x48] [] (fun t => t.sp = 0xFF ∧ t.peek 0x0100 = 0x42) := by decide

/-- 95_test_vectors.md 2.8: PLA. -/
theorem test_pla_1 :
    gives { base with sp := 0xFE } [0x68] [(0x01FF, 0x00)] (fun t => t.a = 0x00 ∧ t.sp = 0xFF ∧ t.flags.z = true ∧
      t.flags.n = false) := by decide

/-- 95_test_vectors.md 2.8: PLA wrap. -/
theorem test_pla_2 :
    gives { base with sp := 0xFF } [0x68] [(0x0100, 0x80)] (fun t => t.a = 0x80 ∧ t.sp = 0x00 ∧ t.flags.z = false ∧
      t.flags.n = true) := by decide

/-- 95_test_vectors.md 2.8: PHP. -/
theorem test_php_1 :
    gives { base with sp := 0xFF, flags := { base.flags with c := true, i := true, v := true, n := true } } [0x08]
      [] (fun t => t.sp = 0xFE ∧ t.peek 0x01FF = 0xE5) := by decide

/-- 95_test_vectors.md 2.8: PHP with B. -/
theorem test_php_2 :
    gives { base with sp := 0xFF, flags := { base.flags with b := true, z := true, d := true } } [0x08] [] (fun t =>
      t.sp = 0xFE ∧ t.peek 0x01FF = 0x3A) := by decide

/-- 95_test_vectors.md 2.8: PLP. -/
theorem test_plp_1 :
    gives { base with sp := 0xFE } [0x28] [(0x01FF, 0x43)] (fun t => t.sp = 0xFF ∧ t.flags.c = true ∧
      t.flags.z = true ∧ t.flags.i = false ∧ t.flags.d = false ∧ t.flags.b = false ∧ t.flags.v = true ∧
      t.flags.n = false) := by decide

/-- 95_test_vectors.md 2.8: PLP. -/
theorem test_plp_2 :
    gives
      { base with sp := 0xFE, flags := { base.flags with c := true, z := true, i := true, d := true, b := true, v := true, n := true } }
      [0x28] [(0x01FF, 0x20)] (fun t => t.flags.c = false ∧ t.flags.z = false ∧ t.flags.i = false ∧ t.flags.d = false
      ∧ t.flags.b = false ∧ t.flags.v = false ∧ t.flags.n = false) := by decide

/-- 95_test_vectors.md 2.8: JSR stack wrap. -/
theorem test_jsr :
    gives { base with sp := 0x00 } [0x20, 0x30, 0x40] [] (fun t => t.sp = 0xFE ∧ t.pc = 0x4030 ∧ t.peek
      0x0100 = 0x40 ∧ t.peek 0x01FF = 0x22) := by decide

/-- 95_test_vectors.md 2.8: RTS. -/
theorem test_rts :
    gives { base with sp := 0xFD } [0x60] [(0x01FE, 0xFF), (0x01FF, 0xFF)] (fun t => t.sp = 0xFF ∧ t.pc = 0x0000)
      := by decide

/-- 95_test_vectors.md 2.8: RTI. -/
theorem test_rti :
    gives { base with sp := 0xFC } [0x40] [(0x01FD, 0x81), (0x01FE, 0x34), (0x01FF, 0x12)] (fun t => t.sp = 0xFF ∧
      t.pc = 0x1234 ∧ t.flags.c = true ∧ t.flags.z = false ∧ t.flags.i = false ∧ t.flags.d = false ∧ t.flags.b = false
      ∧ t.flags.v = false ∧ t.flags.n = true) := by decide

/-- 95_test_vectors.md 2.8: BRK. -/
theorem test_brk :
    gives { base with sp := 0xFF, flags := { base.flags with b := false, i := false } } [0x00] [] (fun t =>
      t.sp = 0xFF ∧ t.pc = 0x4021 ∧ t.flags.i = false ∧ t.flags.b = true) := by decide

/-- 95_test_vectors.md 2.9: BEQ taken -5. -/
theorem test_beq_1 :
    gives { base with flags := { base.flags with z := true } } [0xF0, 0xFB] [] (fun t => t.pc = 0x401D) := by decide

/-- 95_test_vectors.md 2.9: BEQ not taken. -/
theorem test_beq_2 :
    gives { base with flags := { base.flags with z := false } } [0xF0, 0xFB] [] (fun t => t.pc = 0x4022)
      := by decide

/-- 95_test_vectors.md 2.9: BNE taken. -/
theorem test_bne_1 :
    gives { base with flags := { base.flags with z := false } } [0xD0, 0x10] [] (fun t => t.pc = 0x4032)
      := by decide

/-- 95_test_vectors.md 2.9: BNE not taken. -/
theorem test_bne_2 :
    gives { base with flags := { base.flags with z := true } } [0xD0, 0x10] [] (fun t => t.pc = 0x4022) := by decide

/-- 95_test_vectors.md 2.9: BCC taken. -/
theorem test_bcc_1 :
    gives { base with flags := { base.flags with c := false } } [0x90, 0x02] [] (fun t => t.pc = 0x4024)
      := by decide

/-- 95_test_vectors.md 2.9: BCC not taken. -/
theorem test_bcc_2 :
    gives { base with flags := { base.flags with c := true } } [0x90, 0x02] [] (fun t => t.pc = 0x4022) := by decide

/-- 95_test_vectors.md 2.9: BCS taken. -/
theorem test_bcs_1 :
    gives { base with flags := { base.flags with c := true } } [0xB0, 0x10] [] (fun t => t.pc = 0x4032) := by decide

/-- 95_test_vectors.md 2.9: BCS not taken. -/
theorem test_bcs_2 :
    gives { base with flags := { base.flags with c := false } } [0xB0, 0x10] [] (fun t => t.pc = 0x4022)
      := by decide

/-- 95_test_vectors.md 2.9: BMI taken +127. -/
theorem test_bmi_1 :
    gives { base with flags := { base.flags with n := true } } [0x30, 0x7F] [] (fun t => t.pc = 0x40A1) := by decide

/-- 95_test_vectors.md 2.9: BMI not taken. -/
theorem test_bmi_2 :
    gives { base with flags := { base.flags with n := false } } [0x30, 0x7F] [] (fun t => t.pc = 0x4022)
      := by decide

/-- 95_test_vectors.md 2.9: BPL taken -128. -/
theorem test_bpl_1 :
    gives { base with flags := { base.flags with n := false } } [0x10, 0x80] [] (fun t => t.pc = 0x3FA2)
      := by decide

/-- 95_test_vectors.md 2.9: BPL not taken. -/
theorem test_bpl_2 :
    gives { base with flags := { base.flags with n := true } } [0x10, 0x80] [] (fun t => t.pc = 0x4022) := by decide

/-- 95_test_vectors.md 2.9: BVC taken. -/
theorem test_bvc_1 :
    gives { base with flags := { base.flags with v := false } } [0x50, 0x05] [] (fun t => t.pc = 0x4027)
      := by decide

/-- 95_test_vectors.md 2.9: BVC not taken. -/
theorem test_bvc_2 :
    gives { base with flags := { base.flags with v := true } } [0x50, 0x05] [] (fun t => t.pc = 0x4022) := by decide

/-- 95_test_vectors.md 2.9: BVS taken. -/
theorem test_bvs_1 :
    gives { base with flags := { base.flags with v := true } } [0x70, 0x05] [] (fun t => t.pc = 0x4027) := by decide

/-- 95_test_vectors.md 2.9: BVS not taken. -/
theorem test_bvs_2 :
    gives { base with flags := { base.flags with v := false } } [0x70, 0x05] [] (fun t => t.pc = 0x4022)
      := by decide

/-- 95_test_vectors.md 2.9: JMP abs. -/
theorem test_jmp :
    gives base [0x4C, 0x34, 0x12] [] (fun t => t.pc = 0x1234) := by decide

/-- 95_test_vectors.md 2.10: CLC. -/
theorem test_clc :
    gives { base with flags := { base.flags with c := true } } [0x18] [] (fun t => t.pc = 0x4021 ∧
      t.flags.c = false) := by decide

/-- 95_test_vectors.md 2.10: SEC. -/
theorem test_sec :
    gives { base with flags := { base.flags with c := false } } [0x38] [] (fun t => t.pc = 0x4021 ∧
      t.flags.c = true) := by decide

/-- 95_test_vectors.md 2.10: CLI. -/
theorem test_cli :
    gives { base with flags := { base.flags with i := true } } [0x58] [] (fun t => t.flags.i = false) := by decide

/-- 95_test_vectors.md 2.10: SEI. -/
theorem test_sei :
    gives { base with flags := { base.flags with i := false } } [0x78] [] (fun t => t.flags.i = true) := by decide

/-- 95_test_vectors.md 2.10: CLD. -/
theorem test_cld :
    gives { base with flags := { base.flags with d := true } } [0xD8] [] (fun t => t.flags.d = false) := by decide

/-- 95_test_vectors.md 2.10: SED. -/
theorem test_sed :
    gives { base with flags := { base.flags with d := false } } [0xF8] [] (fun t => t.flags.d = true) := by decide

/-- 95_test_vectors.md 2.10: CLV. -/
theorem test_clv :
    gives { base with flags := { base.flags with v := true } } [0xB8] [] (fun t => t.flags.v = false) := by decide

/-- 95_test_vectors.md 2.10: NOP. -/
theorem test_nop :
    gives { base with a := 0x01, flags := { base.flags with c := true } } [0xEA] [] (fun t => t.a = 0x01 ∧
      t.pc = 0x4021 ∧ t.flags.c = true) := by decide

/-- 95_test_vectors.md 2.11: an illegal opcode faults with its byte and its address. -/
theorem test_illegal : step (placed base [0x80] []) = .fault (.illegalOpcode 0x80 0x4020) := rfl

/-- 95_test_vectors.md 2.1: words across the borders of the default map. -/
theorem test_word_reads :
    (placed base [] [(0x1FFF, 0x11), (0x2000, 0x22)]).peekWord 0x1FFF = 0x2211 ∧
    (placed base [] [(0x3FDF, 0x33)]).peekWord 0x3FDF = 0x0033 ∧
    (placed base [] [(0xFFFF, 0x44), (0x0000, 0x55)]).peekWord 0xFFFF = 0x5544 := by decide +kernel

/-- 95_test_vectors.md P1, the trace of the first instruction after the vector's four messages: opcode and operand from
ROM. -/
theorem test_trace_fetch :
    gives base [0xA9, 0x41] [] (fun t => t.trace.take 4 =
      [.dataToCpu .rom 0x41, .addr .rom .read 1, .dataToCpu .rom 0xA9, .addr .rom .read 0]) := by decide +kernel

/-- An access to a peripheral that does not run waits for it (R71). -/
theorem test_stuck :
    step { base with units := ⟨.running, .closed, .running⟩ } = .fault (.waitingFor .rom) := rfl

/-! ## Lifecycle -/

/-- A halted system takes no step (R290). -/
theorem test_halted : step { base with life := .halted } = .fault .halted := rfl

/-- The host's commands out of order are refused by name (R37). -/
theorem test_run_before_construct :
    step { State.powerOn with host := [.runCpu] } = .refused (.hostOutOfOrder .runCpu) := rfl

/-- `reset()` of the ROM loads the image, one of the RAM clears it (R73, R75). -/
theorem test_peripheral_reset :
    (resetPeripheral .rom { base with cfg := { base.cfg with romImage := [0xA9, 0x41] } }).rom.read 1 = 0x41 ∧
    (resetPeripheral .ram { base with ram := [(7, 0x99)] }).ram.read 7 = 0 := by decide +kernel

/-! ## Witnesses: states and operands that meet the hypotheses of the statements -/

theorem reset_operational : State.reset.Operational := ⟨rfl, rfl, by decide⟩

theorem base_operational : base.Operational := ⟨rfl, rfl, by decide⟩

theorem reset_canStep : State.reset.CanStep := ⟨rfl, .inl rfl⟩

theorem reset_inv : State.reset.Inv := ⟨rfl, rfl, rfl, rfl⟩

theorem base_inv : base.Inv := ⟨rfl, rfl, rfl, rfl⟩

theorem witness_DecodedBytesAreTheEncoding : decode [0x4C, 0x34, 0x12] = .ok (.jmpAbs 0x1234, []) := rfl

theorem witness_StepRunsDecodedInstruction :
    State.reset.Operational ∧ State.reset.CanStep ∧
    decode [State.reset.peek State.reset.pc, State.reset.peek (State.reset.pc + 1), State.reset.peek (State.reset.pc + 2)] =
      .ok (.brk, [0, 0]) := ⟨reset_operational, reset_canStep, rfl⟩

theorem witness_StepFaultsOnIllegalOpcode :
    (placed base [0x02] []).Operational ∧ (placed base [0x02] []).CanStep ∧
    (placed base [0x02] []).peek (placed base [0x02] []).pc ∈ illegalOpcodes :=
  ⟨⟨rfl, rfl, by decide⟩, ⟨rfl, .inl rfl⟩, by decide +kernel⟩

theorem witness_UnmappedOpcodeRunsBrk :
    ({ base with pc := 0x3FE0 } : State).CanStep ∧ translate base.cfg 0x3FE0 = none :=
  ⟨⟨rfl, .inl rfl⟩, by decide +kernel⟩

theorem witness_OperationalSystemProgresses : State.reset.Operational ∧ State.reset.CanStep :=
  ⟨reset_operational, reset_canStep⟩

theorem witness_instructions_that_read :
    base.Operational ∧ (Instr.adcImm 0x50).mnemonic = .adc ∧ (Instr.sbcZp 0x10).mnemonic = .sbc ∧
    (Instr.bitAbs 0x4000).mnemonic = .bit ∧ (Instr.ldaAbx 0xFFFF).mnemonic = .lda ∧
    (Instr.ldxZpy 0x90).mnemonic = .ldx ∧ (Instr.ldyImm 0).mnemonic = .ldy := ⟨base_operational, by decide⟩

theorem witness_CompareSetsCarryZeroNegative :
    base.Operational ∧ (Instr.cmpImm 0x41).mnemonic = .cmp ∧ (Instr.cpxZp 0xFF).mnemonic = .cpx ∧
    (Instr.cpyAbs 0).mnemonic = .cpy := ⟨base_operational, by decide⟩

theorem witness_shifts :
    base.Operational ∧ base.Inv ∧ (Instr.aslAcc).mnemonic = .asl ∧ (Instr.lsrAbs 0x2000).mnemonic = .lsr ∧
    (Instr.rolZpx 0x0F).mnemonic = .rol ∧ (Instr.rorAbx 0xFFFF).mnemonic = .ror :=
  ⟨base_operational, base_inv, by decide⟩

theorem witness_LogicActsBitwise :
    base.Operational ∧ (Instr.andImm 0xAA).mnemonic = .and ∧ (Instr.oraIzx 0xFF).mnemonic = .ora ∧
    (Instr.eorIzy 0).mnemonic = .eor := ⟨base_operational, by decide⟩

theorem witness_IncDecChangeMemoryByOne :
    base.Operational ∧ base.Inv ∧ (Instr.incZp 0xFF).mnemonic = .inc ∧ (Instr.decAbx 0xFFFF).mnemonic = .dec :=
  ⟨base_operational, base_inv, by decide⟩

theorem witness_StoresWriteOneByte :
    base.Operational ∧ base.Inv ∧ (Instr.staIzy 0xFF).mnemonic = .sta ∧ (Instr.stxZpy 0x11).mnemonic = .stx ∧
    (Instr.styAbs 0x4000).mnemonic = .sty := ⟨base_operational, base_inv, by decide⟩

/-- Both clauses of the pushes, `SP` at the two ends of its range: what PHP pushes with every flag clear is 0x20. -/
theorem witness_PushesWriteStackCell :
    base.Operational ∧ base.Inv ∧ ({ base with sp := 0xFF } : State).Inv ∧ base.sp = 0 ∧
    (0x20 : Byte).getLsbD 5 = base.cfg.phpBit5 ∧ (0x20 : Byte).getLsbD 0 = base.flags.c ∧
    (0x20 : Byte).getLsbD 1 = base.flags.z ∧ (0x20 : Byte).getLsbD 2 = base.flags.i ∧
    (0x20 : Byte).getLsbD 3 = base.flags.d ∧ (0x20 : Byte).getLsbD 4 = base.flags.b ∧
    (0x20 : Byte).getLsbD 6 = base.flags.v ∧ (0x20 : Byte).getLsbD 7 = base.flags.n :=
  ⟨base_operational, base_inv, base_inv, rfl, by decide⟩

/-- Every clause of the routed reads and writes, at the borders of its windows (95_test_vectors.md 2.1). -/
theorem witness_AccessesAreRouted :
    base.Operational ∧ base.Inv ∧
    translate base.cfg 0x0000 = some (.privRam, 0) ∧ translate base.cfg 0x1FFF = some (.privRam, 0x1FFF) ∧
    translate base.cfg 0x2000 = some (.ram, 0) ∧ translate base.cfg 0x3FDF = some (.ram, 0x1FDF) ∧
    translate base.cfg 0x4000 = some (.gpu, 0) ∧ translate base.cfg 0x401F = some (.gpu, 0x1F) ∧
    translate base.cfg 0x4020 = some (.rom, 0) ∧ translate base.cfg 0xFFFF = some (.rom, 0xBFDF) ∧
    translate base.cfg 0x3FE0 = none ∧ translate base.cfg 0x3FFF = none :=
  ⟨base_operational, base_inv, by decide +kernel⟩

theorem witness_ScanOrderIsIrrelevant :
    validateMap [⟨0, 0, 0x2000, .privRam⟩, ⟨0x2000, 0, 0x10, .ram⟩] = none ∧
    List.Perm [⟨0, 0, 0x2000, .privRam⟩, ⟨0x2000, 0, 0x10, .ram⟩]
      [⟨0x2000, 0, 0x10, .ram⟩, (⟨0, 0, 0x2000, .privRam⟩ : Mapping)] := ⟨by decide, List.Perm.swap _ _ _⟩

/-- The four clauses of a bus transaction, at the last offset of the RAM's window and at offset 0 of the GPU's. -/
theorem witness_BusTakesFourTransitions :
    unitLife base.units .ram = .running ∧ unitLife base.units .gpu = .running ∧ base.bus = .idle ∧
    (0x1FDF : PAddr).toNat < (capacity base.cfg (storeOf .ram)).toNat ∧
    (0 : PAddr).toNat < (capacity base.cfg (storeOf .gpu)).toNat ∧ base.ram.wf = true ∧
    ({ base with bus := .awaitData .gpu .read 0 none } : State).bus ≠ .idle ∧
    ({ base with bus := .awaitData .ram .read 0x1FDF none } : State).bus = .awaitData .ram .read 0x1FDF none ∧
    ({ base with bus := .awaitData .ram .write 0x1FDF (some 7) } : State).bus =
      .awaitData .ram .write 0x1FDF (some 7) ∧
    ({ base with bus := .awaitData .gpu .write 0 (some 7) } : State).bus = .awaitData .gpu .write 0 (some 7) := by
  decide +kernel

/-- `base` with the RAM's loop closed and the ROM's never started. -/
abbrev silent : State := { base with units := ⟨.closed, .idle, .running⟩ }

/-- One state for every clause: a read of ROM, a read and a write of RAM. -/
theorem witness_SilentPeripheralSticks :
    silent.bus = .idle ∧
    unitLife silent.units .ram ≠ .running ∧ translate silent.cfg 0x2000 = some (storeOf .ram, 0) ∧
    unitLife silent.units .rom ≠ .running ∧ translate silent.cfg 0x4020 = some (storeOf .rom, 0) := by
  decide +kernel

theorem witness_BringUpReachesReady :
    State.powerOn.life = .unconstructed ∧ validateMap State.powerOn.cfg.map = none ∧
    configFits State.powerOn.cfg = true := by decide +kernel

theorem witness_CpuResetLoadsVector : State.reset.life = .ready ∧ State.reset.Operational :=
  ⟨rfl, reset_operational⟩

/-- A system that has not been constructed, with the empty table. -/
abbrev tableless : State := { State.powerOn with cfg := { State.powerOn.cfg with map := [] } }

theorem witness_InvalidTableNeverRuns :
    tableless.life = .unconstructed ∧ validateMap tableless.cfg.map = some .missingPrivRam := by decide +kernel

theorem witness_HaltStopsTheCpu :
    ({ base with life := .running, host := [.halt] } : State).life = .running ∧
    ({ base with life := .running, host := [.halt] } : State).host = .halt :: [] := ⟨rfl, rfl⟩

/-- The premises of the invariants and of the whole-machine rules hold at reset, whose next step is a next state. -/
theorem witness_invariants :
    State.reset.Inv ∧ wellPaired State.reset.trace = true ∧ State.reset.host = [] ∧
    goesOn (step State.reset) = true ∧ goesOn (exec .brk State.reset) = true :=
  ⟨reset_inv, rfl, rfl, by decide +kernel, by decide +kernel⟩

end Sys2Proof.Machine.Tests
end

section
/-! PROOFS. The family of the state: the reset state, the packed status byte, what every step keeps, one signal for
each BRK, and which instruction writes which register and which flag. -/

namespace Sys2Proof.Machine

/-! ## The reset state and the packed status byte -/

/-- Settles O52: the storages by `reset_memories_wf`, the bus by its reset value. -/
theorem resetMeetsInvariant : Obligations.ResetMeetsInvariant := by
  obtain ⟨hp, hr, ho⟩ := reset_memories_wf
  exact ⟨hp, hr, ho, rfl⟩

/-- Settles O46: each value is the one written in `State.reset`; RAM, ROM and the image are empty there. -/
theorem resetStateOfSpec : Obligations.ResetStateOfSpec := by
  refine ⟨?pc, fun _ => rfl, fun _ => rfl, rfl, rfl, rfl, rfl, rfl⟩
  case pc => decide

/-- Settles O29: `Pack` is known bit by bit (`packFlags_bits`), and so is a byte whose bit 5 is replaced. -/
theorem unpackThenPack : Obligations.UnpackThenPack := by
  intro b bit5
  refine ⟨rfl, BitVec.eq_of_getLsbD_eq fun k hk => ?_⟩
  obtain ⟨h0, h1, h2, h3, h4, h5, h6, h7⟩ := packFlags_bits bit5 (unpackFlags b)
  interval_cases k <;> simp only [h0, h1, h2, h3, h4, h5, h6, h7] <;> cases bit5 <;>
    simp [unpackFlags]

/-! ## What every step keeps -/

/-- The invariant after a new PrivRAM in canonical form. -/
theorem State.inv_setPrivRam {s : State} (hi : s.Inv) {m : Memory} (hm : m.wf = true) : (s.setPrivRam m).Inv :=
  ⟨hm, hi.2⟩

/-- An instruction keeps the invariant. -/
theorem after_keeps_inv {s : State} (hi : s.Inv) (i : Instr) : (after i s).Inv := by
  obtain ⟨b, h, hb⟩ := after_shape i s
  suffices hs : b.Inv by rw [h]; exact hs
  have hp : s.privRam.wf = true := hi.1
  rcases hb with ⟨l, rfl⟩ | ⟨l, v, d, rfl⟩ | ⟨-, rfl⟩ | ⟨p, d, rfl⟩ | ⟨p, d, q, e, rfl⟩
  · exact (State.inv_afterReads l).2 hi
  · exact State.inv_afterWrite ((State.inv_afterReads l).2 hi) v d
  · exact hi
  · exact State.inv_setPrivRam hi (Memory.wf_write _ p d hp)
  · exact State.inv_setPrivRam hi (Memory.wf_write _ q e (Memory.wf_write _ p d hp))

/-- `reset()` of a peripheral keeps the invariant: RAM becomes empty (R73), ROM is loaded in canonical form (R75). -/
theorem resetPeripheral_keeps_inv {s : State} (hi : s.Inv) (p : Peripheral) : (resetPeripheral p s).Inv := by
  obtain ⟨hp, hr, ho, hb⟩ := hi
  cases p with
  | ram => exact ⟨hp, rfl, ho, hb⟩
  | rom => exact ⟨hp, hr, Memory.wf_load _ _ _ ho, hb⟩
  | gpu => exact ⟨hp, hr, ho, hb⟩

/-- Construction keeps the invariant: a faulted system has its storage still, in a constructed one RAM and ROM are
empty. -/
theorem constructSystem_keeps_inv {s t : State} (hi : s.Inv) (h : constructSystem s = .next t) : t.Inv := by
  rcases constructSystem_inv h with ⟨e, -, rfl⟩ | ⟨-, -, rfl⟩
  · exact hi
  · exact ⟨by simpa using hi.1, rfl, rfl, rfl⟩

/-- A host command keeps the invariant. -/
theorem hostCommand_keeps_inv {cmd : HostCommand} {s t : State} (hi : s.Inv) (h : hostCommand cmd s = .next t) :
    t.Inv := by
  rcases hostCommand_inv h with rfl | h | ⟨p, rfl⟩ | ⟨u, rfl⟩ | rfl | ⟨l, rfl⟩
  · exact hi
  · exact constructSystem_keeps_inv hi h
  · exact resetPeripheral_keeps_inv hi p
  · exact hi
  · exact (State.inv_afterReads (s := s) [0xFFFC, 0xFFFD]).2 hi
  · exact hi

/-- Settles O51: a step is a host command or one instruction after reads (`step_inv`), and each keeps the invariant. -/
theorem stepKeepsInvariant : Obligations.StepKeepsInvariant := by
  intro s t hi h
  rcases step_inv h with ⟨cmd, rest, -, h⟩ | ⟨-, -, i, l, rfl⟩
  · exact hostCommand_keeps_inv (s := s.setHost rest) hi h
  · exact after_keeps_inv ((State.inv_afterReads (s := s.setLife .running) l).2 hi) i

/-- Settles O53: host commands keep the configuration (`hostCommand_cfg`), and so do instructions (`after_system`). -/
theorem stepKeepsConfiguration : Obligations.StepKeepsConfiguration := by
  intro s t h
  rcases step_inv h with ⟨cmd, rest, -, h⟩ | ⟨-, -, i, l, rfl⟩
  · rw [hostCommand_cfg h, State.setHost_cfg]
  · obtain ⟨-, -, -, hc, -⟩ := after_system i ((s.setLife .running).afterReads l)
    rw [hc, State.afterReads_cfg, State.setLife_cfg]

/-! ## The BRK signal -/

theorem brkSignals_append (l m : List Event) : brkSignals (l ++ m) = brkSignals l + brkSignals m := by
  induction l with
  | nil => simp [brkSignals]
  | cons e l ih => cases e <;> simp [brkSignals, ih]; omega

/-- A read emits no BRK signal. -/
theorem brkSignals_readEvents (c : SystemConfig) (v : Word) (d : Byte) : brkSignals (readEvents c v d) = 0 := by
  unfold readEvents
  split <;> rfl

theorem brkSignals_readsEvents (s : State) (l : List Word) : brkSignals (readsEvents s l) = 0 := by
  induction l with
  | nil => rfl
  | cons v l ih => rw [readsEvents, brkSignals_append, ih, brkSignals_readEvents]

/-- A write emits no BRK signal. -/
theorem brkSignals_writeEvents (c : SystemConfig) (v : Word) (d : Byte) : brkSignals (writeEvents c v d) = 0 := by
  unfold writeEvents
  split <;> rfl

theorem State.brkSignals_afterReads (s : State) (l : List Word) :
    brkSignals (s.afterReads l).trace = brkSignals s.trace := by
  rw [State.afterReads_trace, brkSignals_append, brkSignals_readsEvents, Nat.zero_add]

theorem State.brkSignals_afterWrite (s : State) (v : Word) (d : Byte) :
    brkSignals (s.afterWrite v d).trace = brkSignals s.trace := by
  rw [State.afterWrite_trace, brkSignals_append, brkSignals_writeEvents, Nat.zero_add]

/-- BRK is the one instruction with its mnemonic. -/
theorem eq_brk_of_mnemonic_eq {i : Instr} (h : i.mnemonic = .brk) : i = .brk := by
  cases i
  case brk => rfl
  all_goals exact nomatch h

/-- Every instruction but BRK keeps the number of BRK signals. -/
theorem brkSignals_after_of_ne {i : Instr} (hi : i ≠ .brk) (s : State) :
    brkSignals (after i s).trace = brkSignals s.trace := by
  obtain ⟨b, h, hb⟩ := after_shape i s
  suffices hs : brkSignals b.trace = brkSignals s.trace by rw [h]; exact hs
  rcases hb with ⟨l, rfl⟩ | ⟨l, v, d, rfl⟩ | ⟨hm, -⟩ | ⟨p, d, rfl⟩ | ⟨p, d, q, e, rfl⟩
  · exact State.brkSignals_afterReads s l
  · rw [State.brkSignals_afterWrite, State.brkSignals_afterReads]
  · exact absurd (eq_brk_of_mnemonic_eq hm) hi
  · rfl
  · rfl

/-- Settles O58: BRK emits its signal on top of the trace, every other instruction emits none. -/
theorem oneSignalPerBrk : Obligations.OneSignalPerBrk := by
  intro i s t h
  cases exec_inv h
  split
  · rename_i hi; subst hi; rfl
  · rename_i hi; exact brkSignals_after_of_ne hi s

/-! ## What an instruction writes of the registers and the flags -/

@[simp] theorem State.advance_a (s : State) (n : Nat) : (s.advance n).a = s.a := rfl
@[simp] theorem State.advance_x (s : State) (n : Nat) : (s.advance n).x = s.x := rfl
@[simp] theorem State.advance_y (s : State) (n : Nat) : (s.advance n).y = s.y := rfl
@[simp] theorem State.advance_sp (s : State) (n : Nat) : (s.advance n).sp = s.sp := rfl
@[simp] theorem State.advance_flags (s : State) (n : Nat) : (s.advance n).flags = s.flags := rfl

@[simp] theorem State.putA_a (s : State) (r : Byte × Flags) : (s.putA r).a = r.1 := rfl
@[simp] theorem State.putA_x (s : State) (r : Byte × Flags) : (s.putA r).x = s.x := rfl
@[simp] theorem State.putA_y (s : State) (r : Byte × Flags) : (s.putA r).y = s.y := rfl
@[simp] theorem State.putA_sp (s : State) (r : Byte × Flags) : (s.putA r).sp = s.sp := rfl
@[simp] theorem State.putA_flags (s : State) (r : Byte × Flags) : (s.putA r).flags = r.2 := rfl

@[simp] theorem State.putX_a (s : State) (r : Byte × Flags) : (s.putX r).a = s.a := rfl
@[simp] theorem State.putX_x (s : State) (r : Byte × Flags) : (s.putX r).x = r.1 := rfl
@[simp] theorem State.putX_y (s : State) (r : Byte × Flags) : (s.putX r).y = s.y := rfl
@[simp] theorem State.putX_sp (s : State) (r : Byte × Flags) : (s.putX r).sp = s.sp := rfl
@[simp] theorem State.putX_flags (s : State) (r : Byte × Flags) : (s.putX r).flags = r.2 := rfl

@[simp] theorem State.putY_a (s : State) (r : Byte × Flags) : (s.putY r).a = s.a := rfl
@[simp] theorem State.putY_x (s : State) (r : Byte × Flags) : (s.putY r).x = s.x := rfl
@[simp] theorem State.putY_y (s : State) (r : Byte × Flags) : (s.putY r).y = r.1 := rfl
@[simp] theorem State.putY_sp (s : State) (r : Byte × Flags) : (s.putY r).sp = s.sp := rfl
@[simp] theorem State.putY_flags (s : State) (r : Byte × Flags) : (s.putY r).flags = r.2 := rfl

@[simp] theorem State.afterPush_a (s : State) (v : Byte) : (s.afterPush v).a = s.a := rfl
@[simp] theorem State.afterPush_x (s : State) (v : Byte) : (s.afterPush v).x = s.x := rfl
@[simp] theorem State.afterPush_y (s : State) (v : Byte) : (s.afterPush v).y = s.y := rfl
@[simp] theorem State.afterPush_flags (s : State) (v : Byte) : (s.afterPush v).flags = s.flags := rfl

@[simp] theorem raiseBreak_a (s : State) : (raiseBreak s).a = s.a := rfl
@[simp] theorem raiseBreak_x (s : State) : (raiseBreak s).x = s.x := rfl
@[simp] theorem raiseBreak_y (s : State) : (raiseBreak s).y = s.y := rfl
@[simp] theorem raiseBreak_sp (s : State) : (raiseBreak s).sp = s.sp := rfl
@[simp] theorem raiseBreak_flags (s : State) : (raiseBreak s).flags = { s.flags with b := true } := rfl

@[simp] theorem State.afterStore_a (s : State) (a : AddrForm) (v : Byte) : (s.afterStore a v).a = s.a := by
  simp [State.afterStore]
@[simp] theorem State.afterStore_x (s : State) (a : AddrForm) (v : Byte) : (s.afterStore a v).x = s.x := by
  simp [State.afterStore]
@[simp] theorem State.afterStore_y (s : State) (a : AddrForm) (v : Byte) : (s.afterStore a v).y = s.y := by
  simp [State.afterStore]
@[simp] theorem State.afterStore_sp (s : State) (a : AddrForm) (v : Byte) : (s.afterStore a v).sp = s.sp := by
  simp [State.afterStore]
@[simp] theorem State.afterStore_flags (s : State) (a : AddrForm) (v : Byte) : (s.afterStore a v).flags = s.flags := by
  simp [State.afterStore]

/-- `ModifyOperand` writes `A` in Accumulator mode only, and no other register (R136). -/
theorem State.afterModify_registers (s : State) (t : Target) (f : Byte → Flags → Byte × Flags) :
    (t ≠ .accumulator → (s.afterModify t f).a = s.a) ∧ SameXYS s (s.afterModify t f) := by
  cases t <;> simp [State.afterModify, SameXYS]

/-- `ModifyOperand` sets the flags of its result (R136). -/
@[simp] theorem State.afterModify_flags (s : State) (t : Target) (f : Byte → Flags → Byte × Flags) :
    (s.afterModify t f).flags = (f (s.targetValue t) s.flags).2 := by
  cases t <;> rfl

/-- A modify-class instruction whose mode is not Accumulator has a memory target. -/
theorem target_ne_accumulator {i : Instr} (hm : i.mnemonic ∈ [Mnemonic.asl, .lsr, .rol, .ror, .inc, .dec])
    (ho : i.operand ≠ .accumulator) : i.operand.target ≠ .accumulator := by
  intro ht
  exact ho (by rw [Instr.operand_eq_target hm, ht]; rfl)

/-- Settles O57: a case for each family of instructions, by what it does with its operand. -/
theorem onlyListedInstructionsWriteRegisters : Obligations.OnlyListedInstructionsWriteRegisters := by
  intro i s t h
  cases exec_inv h
  cases hm : i.mnemonic <;> simp only [after, hm]
  case asl | lsr | rol | ror | inc | dec =>
    obtain ⟨ha, hx, hy, hsp⟩ := s.afterModify_registers i.operand.target _
    exact ⟨fun _ ho => ha (target_ne_accumulator (by simp [hm]) ho), fun _ => hx, fun _ => hy, fun _ => hsp⟩
  case lda | ldx | ldy | adc | sbc | and | ora | eor | cmp | cpx | cpy | bit => simp [State.afterLoad]
  case sta | stx | sty | pha | php | pla | plp | jsr | rts | rti => simp
  case tax | tay | txa | tya | tsx | txs | inx | iny | dex | dey => simp
  case clc | sec | cli | sei | cld | sed | clv | nop | brk => simp
  case bcc | bcs | beq | bne | bmi | bpl | bvc | bvs | jmp => simp

/-- Settles O56: a case for each family of instructions, by the flag computation it uses. -/
theorem onlyListedInstructionsWriteFlags : Obligations.OnlyListedInstructionsWriteFlags := by
  intro i s t h
  cases exec_inv h
  cases hm : i.mnemonic <;> simp only [after, hm]
  case adc => simp [State.afterLoad, addWithCarry_eq]
  case sbc => simp [State.afterLoad, subtractSetFlags_eq]
  case cmp | cpx | cpy => simp [State.afterLoad, compareSetFlags_eq]
  case bit => simp [State.afterLoad, bitTestSetFlags_eq]
  case lda | ldx | ldy | and | ora | eor => simp [State.afterLoad, resultSetFlags_eq]
  case asl | lsr | rol | ror => simp [shiftSetFlags, setZN]
  case inc | dec => simp [resultSetFlags_eq]
  case tax | tay | txa | tya | tsx | inx | iny | dex | dey | pla => simp [resultSetFlags_eq]
  case clc | sec | cli | sei | cld | sed | clv | brk => simp
  case plp | rti => simp
  case sta | stx | sty | pha | php | jsr | rts | txs | nop => simp
  case bcc | bcs | beq | bne | bmi | bpl | bvc | bvs | jmp => simp

end Sys2Proof.Machine
end

section
/-! PROOFS. The family of memory: the mapping table and its scan, reads and writes through the MMU, the bus and its
messages, the GPU's output, and the systems that cannot run. -/

namespace Sys2Proof.Machine

/-! ## The bus messages -/

/-- The events of a read are a whole transaction, a diagnostic or nothing. -/
theorem wellPaired_readEvents_append (c : SystemConfig) (v : Word) (d : Byte) (tr : List Event) :
    wellPaired (readEvents c v d ++ tr) = wellPaired tr := by
  unfold readEvents
  split <;> simp [wellPaired]

/-- The events of a write are a whole transaction, a diagnostic or nothing. -/
theorem wellPaired_writeEvents_append (c : SystemConfig) (v : Word) (d : Byte) (tr : List Event) :
    wellPaired (writeEvents c v d ++ tr) = wellPaired tr := by
  unfold writeEvents
  split <;> simp [wellPaired]

theorem wellPaired_readsEvents_append (s : State) (l : List Word) (tr : List Event) :
    wellPaired (readsEvents s l ++ tr) = wellPaired tr := by
  induction l generalizing tr with
  | nil => rfl
  | cons v l ih => rw [readsEvents, List.append_assoc, ih, wellPaired_readEvents_append]

theorem State.wellPaired_afterReads (s : State) (l : List Word) :
    wellPaired (s.afterReads l).trace = wellPaired s.trace := by
  rw [State.afterReads_trace, wellPaired_readsEvents_append]

theorem State.wellPaired_afterWrite (s : State) (v : Word) (d : Byte) :
    wellPaired (s.afterWrite v d).trace = wellPaired s.trace := by
  rw [State.afterWrite_trace, wellPaired_writeEvents_append]

/-- An instruction adds whole transactions, diagnostics and the BRK signal only. -/
theorem wellPaired_after (i : Instr) (s : State) : wellPaired (after i s).trace = wellPaired s.trace := by
  obtain ⟨b, h, hb⟩ := after_shape i s
  suffices hs : wellPaired b.trace = wellPaired s.trace by rw [h]; exact hs
  rcases hb with ⟨l, rfl⟩ | ⟨l, v, d, rfl⟩ | ⟨-, rfl⟩ | ⟨p, d, rfl⟩ | ⟨p, d, q, e, rfl⟩
  · exact s.wellPaired_afterReads l
  · rw [State.wellPaired_afterWrite, State.wellPaired_afterReads]
  · simp [wellPaired]
  · rfl
  · rfl

/-- A host command keeps the trace, empties it, or adds the two reads of the vector. -/
theorem hostCommand_keeps_wellPaired {cmd : HostCommand} {s t : State} (hs : wellPaired s.trace = true)
    (h : hostCommand cmd s = .next t) : wellPaired t.trace = true := by
  rcases hostCommand_inv h with rfl | h | ⟨p, rfl⟩ | ⟨u, rfl⟩ | rfl | ⟨l, rfl⟩
  · exact hs
  · rcases constructSystem_inv h with ⟨e, -, rfl⟩ | ⟨-, -, rfl⟩
    · exact hs
    · rw [State.constructed_trace]; rfl
  · cases p <;> exact hs
  · exact hs
  · exact (s.wellPaired_afterReads [0xFFFC, 0xFFFD]).trans hs
  · exact hs

/-- Settles O55: a step is a host command or one instruction after reads (`step_inv`), and each keeps the pairing. -/
theorem busMessagesStayPaired : Obligations.BusMessagesStayPaired := by
  intro s t hs h
  rcases step_inv h with ⟨cmd, rest, -, h⟩ | ⟨-, -, i, l, rfl⟩
  · exact hostCommand_keeps_wellPaired (s := s.setHost rest) hs h
  · rw [wellPaired_after, State.wellPaired_afterReads, State.setLife_trace, hs]

/-! ## The GPU's output -/

theorem emittedChars_length_le (c : SystemConfig) (v : Word) (d : Byte) : (emittedChars c v d).length ≤ 1 := by
  unfold emittedChars
  split
  · split <;> simp
  · simp

/-- Settles O59: of what an instruction can do (`after_shape`), its one write alone can emit a character. -/
theorem gpuOutputOnlyGrows : Obligations.GpuOutputOnlyGrows := by
  intro i s t h
  cases exec_inv h
  obtain ⟨b, h, hb⟩ := after_shape i s
  suffices hs : ∃ out, b.gpuOut = s.gpuOut ++ out ∧ out.length ≤ 1 by rw [h]; exact hs
  rcases hb with ⟨l, rfl⟩ | ⟨l, v, d, rfl⟩ | ⟨-, rfl⟩ | ⟨p, d, rfl⟩ | ⟨p, d, q, e, rfl⟩
  case inr.inl =>
    exact ⟨emittedChars s.cfg v d, by simp [State.afterWrite_gpuOut], emittedChars_length_le s.cfg v d⟩
  all_goals exact ⟨[], by simp, Nat.zero_le 1⟩

/-! ## Reads and writes through the MMU -/

theorem State.peek_of_translate {s : State} {v : Word} {st : Store} {pa : PAddr}
    (ht : translate s.cfg v = some (st, pa)) : s.peek v = s.byteAt st pa.toNat := by
  simp only [State.peek, ht]

theorem State.peek_of_unmapped {s : State} {v : Word} (ht : translate s.cfg v = none) : s.peek v = 0 := by
  simp only [State.peek, ht]

theorem State.afterRead_trace (s : State) (v : Word) :
    (s.afterRead v).trace = readEvents s.cfg v (s.peek v) ++ s.trace := rfl

/-- Settles O38: the read gives `peek` and leaves `afterRead`; each route has its value and its events. -/
theorem readsAreRouted : Obligations.ReadsAreRouted := by
  intro s v h
  refine ⟨_, _, memRead_next h v, ⟨rfl, rfl, rfl, rfl⟩, rfl, rfl, sameStorage_of rfl rfl rfl rfl rfl,
    ⟨rfl, rfl, rfl, rfl, rfl⟩, ?_⟩
  have htrace := s.afterRead_trace v
  unfold readEvents at htrace
  split <;> rename_i ht <;> simp only [ht] at htrace
  · exact ⟨State.peek_of_translate ht, htrace⟩
  · exact ⟨State.peek_of_translate ht, htrace⟩
  · exact ⟨State.peek_of_translate ht, htrace⟩
  · exact ⟨State.peek_of_translate ht, htrace⟩
  · exact ⟨State.peek_of_unmapped ht, htrace⟩

/-- A change of no cell and no output is none a reader sees. -/
theorem sameStorage_of_storesCell_none {s t : State} {d : Byte} (h : StoresCell s t none d)
    (hg : t.gpuOut = s.gpuOut) : SameStorage s t := by
  obtain ⟨hb, hp⟩ := h
  exact ⟨fun v => hp v (.inl rfl), fun st off => by simpa using hb st off, hg⟩

/-- Settles O39: the write leaves `afterWrite`; each route has its cell, its characters and its events. -/
theorem writesAreRouted : Obligations.WritesAreRouted := by
  intro s v b h hi
  refine ⟨_, memWrite_next h v b, by simp [SameRegisters, SameXYS], by simp, by simp, by simp [SameSystem], ?_⟩
  obtain ⟨hcell, hout⟩ := storesByte_afterWrite hi v b
  have htrace := s.afterWrite_trace v b
  unfold writtenCell at hcell
  unfold emittedChars at hout
  unfold writeEvents at htrace
  split <;> rename_i ht <;> simp only [ht, List.append_nil] at hcell hout htrace
  · exact ⟨hcell, hout, htrace⟩
  · exact ⟨hcell, hout, htrace⟩
  · exact ⟨hcell, hout, htrace⟩
  · exact ⟨sameStorage_of_storesCell_none hcell hout, htrace⟩
  · exact ⟨sameStorage_of_storesCell_none hcell hout, htrace⟩

theorem pair_toNat (hi lo : Byte) : (pair hi lo).toNat = lo.toNat + 256 * hi.toNat := by
  have := lo.isLt
  rw [pair, BitVec.toNat_append, ← Nat.shiftLeft_add_eq_or_of_lt this, Nat.shiftLeft_eq]
  omega

/-- Settles O40: the two reads in their order (`memReadWord_next`), the second one's byte on top. -/
theorem wordReadIsLittleEndian : Obligations.WordReadIsLittleEndian := by
  intro s v h
  refine ⟨_, _, memReadWord_next h v, pair_toNat _ _, ?_⟩
  rw [State.afterReads_trace]
  simp [readsEvents]

/-! ## The mapping table -/

theorem mappingCovers_iff {e : Mapping} {v : Word} :
    mappingCovers e v = true ↔ e.virtStart.toNat ≤ v.toNat ∧ v.toNat < mappingEnd e := by
  simp [mappingCovers]

/-- Two entries overlap when they cover a common integer address (R56 invariant 1). -/
theorem mappingsOverlap_iff {e f : Mapping} :
    mappingsOverlap e f = true ↔
      ∃ n, e.virtStart.toNat ≤ n ∧ n < mappingEnd e ∧ f.virtStart.toNat ≤ n ∧ n < mappingEnd f := by
  rw [mappingsOverlap, decide_eq_true_eq]
  constructor
  · intro h
    exact ⟨max e.virtStart.toNat f.virtStart.toNat, by omega⟩
  · rintro ⟨n, hn⟩
    omega

theorem firstOverlapWith_eq_none_iff {e : Mapping} {j : Nat} {t : List Mapping} :
    firstOverlapWith e j t = none ↔ ∀ f ∈ t, mappingsOverlap e f = false := by
  induction t generalizing j with
  | nil => simp [firstOverlapWith]
  | cons f rest ih =>
    by_cases h : mappingsOverlap e f = true <;> simp [firstOverlapWith, h, ih]

theorem firstOverlap_eq_none_iff {i : Nat} {t : List Mapping} :
    firstOverlap i t = none ↔ t.Pairwise fun e f => mappingsOverlap e f = false := by
  induction t generalizing i with
  | nil => simp [firstOverlap]
  | cons e rest ih =>
    rw [firstOverlap, List.pairwise_cons, ← firstOverlapWith_eq_none_iff (j := i + 1), ← ih (i := i + 1)]
    cases firstOverlapWith e (i + 1) rest <;> simp

theorem firstPrivRam_eq_none_iff {i : Nat} {t : List Mapping} :
    firstPrivRam i t = none ↔ ∀ e ∈ t, e.store ≠ .privRam := by
  induction t generalizing i with
  | nil => simp [firstPrivRam]
  | cons e rest ih =>
    by_cases h : e.store = .privRam <;> simp [firstPrivRam, h, ih]

theorem validateMap_eq_none_iff {t : List Mapping} :
    validateMap t = none ↔
      t.Pairwise (fun e f => mappingsOverlap e f = false) ∧ startsWithPrivRam t = true ∧
        ∀ e ∈ t.tail, e.store ≠ .privRam := by
  rw [← firstOverlap_eq_none_iff (i := 0), ← firstPrivRam_eq_none_iff (i := 1), validateMap]
  cases firstOverlap 0 t with
  | some p => simp
  | none => cases startsWithPrivRam t <;> simp

theorem startsWithPrivRam_iff {t : List Mapping} :
    startsWithPrivRam t = true ↔ ∃ e, t[0]? = some e ∧ e.store = .privRam := by
  cases t <;> simp [startsWithPrivRam]

/-- Pairwise disjoint, said of the entries by their indices and the addresses they cover. -/
theorem pairwise_disjoint_iff_getElem? {t : List Mapping} :
    t.Pairwise (fun e f => mappingsOverlap e f = false) ↔
      ∀ (i j : Nat) (e f : Mapping), i < j → t[i]? = some e → t[j]? = some f →
        ∀ n : Nat, ¬ (e.virtStart.toNat ≤ n ∧ n < mappingEnd e ∧ f.virtStart.toNat ≤ n ∧ n < mappingEnd f) := by
  simp only [← not_exists, ← mappingsOverlap_iff, Bool.not_eq_true, List.pairwise_iff_getElem]
  constructor
  · intro h i j e f hij hi hj
    obtain ⟨hil, rfl⟩ := List.getElem?_eq_some_iff.1 hi
    obtain ⟨hjl, rfl⟩ := List.getElem?_eq_some_iff.1 hj
    exact h i j hil hjl hij
  · intro h i j hi hj hij
    exact h i j _ _ hij (List.getElem?_eq_getElem hi) (List.getElem?_eq_getElem hj)

/-- A property of every entry but the first, said of the entries by their indices (R56 invariant 3). -/
theorem forall_tail_iff_getElem? {t : List Mapping} {p : Mapping → Prop} :
    (∀ e ∈ t.tail, p e) ↔ ∀ (i : Nat) (e : Mapping), 1 ≤ i → t[i]? = some e → p e := by
  simp only [List.mem_iff_getElem?, List.getElem?_tail]
  constructor
  · intro h i e hi he
    exact h e ⟨i - 1, by rwa [Nat.sub_add_cancel hi]⟩
  · rintro h e ⟨i, he⟩
    exact h (i + 1) e (by omega) he

/-- Settles O42: `validateMap` finds nothing wrong when each of its three scans finds nothing. -/
theorem validTablesMeetInvariants : Obligations.ValidTablesMeetInvariants := by
  intro t
  rw [validateMap_eq_none_iff, pairwise_disjoint_iff_getElem?, startsWithPrivRam_iff, forall_tail_iff_getElem?]
  rfl

/-- Entries that cover a common address overlap. -/
theorem mappingsOverlap_of_covers {e f : Mapping} {v : Word} (he : mappingCovers e v = true)
    (hf : mappingCovers f v = true) : mappingsOverlap e f = true := by
  obtain ⟨he1, he2⟩ := mappingCovers_iff.1 he
  obtain ⟨hf1, hf2⟩ := mappingCovers_iff.1 hf
  exact mappingsOverlap_iff.2 ⟨v.toNat, he1, he2, hf1, hf2⟩

/-- In a table of disjoint entries the scan finds the one entry that covers the address, wherever it stands. -/
theorem scanMap_eq_some_iff {t : List Mapping} (ht : t.Pairwise fun e f => mappingsOverlap e f = false) {v : Word}
    {e : Mapping} : scanMap v t = some e ↔ e ∈ t ∧ mappingCovers e v = true := by
  refine ⟨scanMap_some, ?_⟩
  rintro ⟨hm, hc⟩
  induction t with
  | nil => simp at hm
  | cons f rest ih =>
    obtain ⟨hf, hrest⟩ := List.pairwise_cons.1 ht
    rw [scanMap]
    rcases List.mem_cons.1 hm with rfl | hm
    · rw [if_pos hc]
    · have hnot : ¬ mappingCovers f v = true := fun hfc => by
        simpa [hf e hm] using mappingsOverlap_of_covers hfc hc
      rw [if_neg hnot, ih hrest hm]

theorem mappingsOverlap_comm (e f : Mapping) : mappingsOverlap e f = mappingsOverlap f e := by
  simp only [mappingsOverlap, Nat.max_comm, Nat.min_comm]

/-- Settles O41: a reordering has the same entries and is disjoint too, and the scan finds the entry that covers. -/
theorem scanOrderIsIrrelevant : Obligations.ScanOrderIsIrrelevant := by
  intro t u v ht hp
  have hdt := (validateMap_eq_none_iff.1 ht).1
  have hdu := hdt.perm hp fun h => (mappingsOverlap_comm _ _).trans h
  ext e
  rw [scanMap_eq_some_iff hdu, scanMap_eq_some_iff hdt, hp.mem_iff]

/-! ### The default table -/

/-- The entry of the default table that covers an address (R58). -/
theorem scanMap_defaultMap (v : Word) :
    scanMap v defaultMap =
      if v.toNat < 0x2000 then some ⟨0x0000, 0, 0x2000, .privRam⟩
      else if v.toNat < 0x3FE0 then some ⟨0x2000, 0, 0x1FE0, .ram⟩
      else if v.toNat < 0x4000 then none
      else if v.toNat < 0x4020 then some ⟨0x4000, 0, 0x0020, .gpu⟩
      else some ⟨0x4020, 0, 0xBFE0, .rom⟩ := by
  have := v.isLt
  simp only [defaultMap, scanMap, mappingCovers_iff, mappingEnd, BitVec.reduceToNat]
  by_cases h0 : v.toNat < 0x2000
  · rw [if_pos (by omega), if_pos h0]
  rw [if_neg (by omega), if_neg h0]
  by_cases h1 : v.toNat < 0x3FE0
  · rw [if_pos (by omega), if_pos h1]
  rw [if_neg (by omega), if_neg h1]
  by_cases h2 : v.toNat < 0x4000
  · rw [if_neg (by omega), if_neg (by omega), if_pos h2]
  rw [if_neg h2]
  by_cases h3 : v.toNat < 0x4020
  · rw [if_pos (by omega), if_pos h3]
  · rw [if_neg (by omega), if_pos (by omega), if_neg h3]

/-- The offset in a window that begins at offset 0 of its store (R59). -/
theorem windowOffset {v start : Word} (h : start.toNat ≤ v.toNat) :
    (0 : PAddr) + (v - start).setWidth 32 = BitVec.ofNat 32 (v.toNat - start.toNat) := by
  rw [zero_add, ← BitVec.toNat_sub_of_le h, BitVec.ofNat_toNat]

/-- Settles O43: the scan of the default table, and the offset in each of its windows. -/
theorem defaultTableTranslates : Obligations.DefaultTableTranslates := by
  refine ⟨rfl, by decide, by decide, fun v => ?_⟩
  have ht : translate State.reset.cfg v =
      (scanMap v defaultMap).map fun e => (e.store, e.physStart + (v - e.virtStart).setWidth 32) := rfl
  rw [ht, scanMap_defaultMap]
  split_ifs <;> simp only [Option.map_some, Option.map_none]
  · rw [windowOffset (Nat.zero_le _)]; rfl
  · rw [windowOffset (by simp; omega)]; rfl
  · rw [windowOffset (by simp; omega)]; rfl
  · rw [windowOffset (by simp; omega)]; rfl

/-! ## An opcode fetched from an unmapped address -/

/-- `MemRead` of an unmapped address completes in any state (R62, R252). -/
theorem memRead_unmapped {s : State} {v : Word} (ht : translate s.cfg v = none) :
    memRead v s = .next (0, s.emit (.unmappedRead v)) := by
  simp only [memRead, ht]

/-- The fetch from an unmapped address gives BRK and needs no operand byte (R104). -/
theorem fetch_unmapped {s : State} (ht : translate s.cfg s.pc = none) :
    fetch s = .next (.brk, s.emit (.unmappedRead s.pc)) := by
  rw [fetch, memRead_unmapped ht]
  rfl

/-- Settles O7: the fetch gives BRK (`fetch_unmapped`), and the step is BRK's effect. -/
theorem unmappedOpcodeRunsBrk : Obligations.UnmappedOpcodeRunsBrk := by
  intro s h ht
  rw [step_fetch h, fetch_unmapped (s := s.setLife .running) ht]
  rfl

/-! ## The transitions of the bus -/

theorem busAddress_idle {s : State} {p : Peripheral} (hb : s.bus = .idle) (hu : unitLife s.units p = .running)
    (dir : Rw) (pa : PAddr) (v : Option Byte) :
    busAddress p dir pa v s = .next ((s.emit (.addr p dir pa)).setBus (.awaitData p dir pa v)) := by
  simp [busAddress, hb, hu]

theorem busAddress_busy {s : State} (hb : s.bus ≠ .idle) (p : Peripheral) (dir : Rw) (pa : PAddr) (v : Option Byte) :
    busAddress p dir pa v s = .fault .busOutOfTurn := by
  simp [busAddress, hb]

theorem busAddress_silent {s : State} {p : Peripheral} (hb : s.bus = .idle) (hu : unitLife s.units p ≠ .running)
    (dir : Rw) (pa : PAddr) (v : Option Byte) : busAddress p dir pa v s = .fault (.waitingFor p) := by
  simp [busAddress, hb, hu]

/-- The data message of a read (R70 row 2). -/
theorem busData_read {s : State} {p : Peripheral} {pa : PAddr} {v : Option Byte} (hb : s.bus = .awaitData p .read pa v)
    (hs : pa.toNat < (capacity s.cfg (storeOf p)).toNat) :
    busData s = .next (s.byteAt (storeOf p) pa.toNat,
      ((s.noteRead p pa).emit (.dataToCpu p (s.byteAt (storeOf p) pa.toNat))).setBus .idle) := by
  simp [busData, hb, State.inStore, hs]

/-- The data message of a write (R70 row 4). -/
theorem busData_write {s : State} {p : Peripheral} {pa : PAddr} {v : Byte}
    (hb : s.bus = .awaitData p .write pa (some v)) (hs : pa.toNat < (capacity s.cfg (storeOf p)).toNat) :
    busData s = .next (0, ((s.emit (.dataFromCpu p v)).peripheralTakes p pa v).setBus .idle) := by
  simp [busData, hb, State.inStore, hs]

/-- A peripheral that answers a read changes at most the GPU's own log. -/
theorem State.noteRead_eq (s : State) (p : Peripheral) (pa : PAddr) : ∃ lg, s.noteRead p pa = s.setGpuLog lg := by
  cases p
  case gpu => exact ⟨_, rfl⟩
  all_goals exact ⟨s.gpuLog, rfl⟩

/-- A peripheral that takes a byte changes at most RAM, the output and the GPU's own log. -/
theorem State.peripheralTakes_eq (s : State) (p : Peripheral) (pa : PAddr) (v : Byte) :
    ∃ m out lg, s.peripheralTakes p pa v = ((s.setRam m).setGpuOut out).setGpuLog lg := by
  unfold State.peripheralTakes
  split
  · exact ⟨s.ram.write pa.toNat v, s.gpuOut, s.gpuLog, rfl⟩
  · exact ⟨s.ram, s.gpuOut, s.gpuLog, rfl⟩
  · split
    · exact ⟨s.ram, s.gpuOut ++ [v], s.gpuLog, rfl⟩
    · exact ⟨s.ram, s.gpuOut, .writeIgnored pa v :: s.gpuLog, rfl⟩

/-- RAM stores the byte at its offset, and no other peripheral stores one (R73, R74, R77). -/
theorem State.byteAt_peripheralTakes {s : State} (hr : s.ram.wf = true) (p : Peripheral) (pa : PAddr) (v : Byte)
    (st : Store) (off : Nat) :
    (s.peripheralTakes p pa v).byteAt st off =
      if (if p = .ram then some (Store.ram, pa.toNat) else none) = some (st, off) then v else s.byteAt st off := by
  cases p with
  | ram => cases st <;> simp [State.peripheralTakes, State.byteAt, Memory.read_write _ _ _ _ hr, eq_comm]
  | rom => rfl
  | gpu => simp only [State.peripheralTakes]; split <;> cases st <;> rfl

/-- The GPU alone emits the byte, and at offset 0 alone (R77). -/
theorem State.peripheralTakes_gpuOut (s : State) (p : Peripheral) (pa : PAddr) (v : Byte) :
    (s.peripheralTakes p pa v).gpuOut = s.gpuOut ++ (if p = .gpu ∧ pa = 0 then [v] else []) := by
  cases p with
  | ram | rom => exact (List.append_nil _).symm
  | gpu =>
    rw [State.peripheralTakes]
    by_cases hpa : pa = 0
    · rw [if_pos hpa, if_pos ⟨rfl, hpa⟩, State.emitChar_gpuOut]
    · rw [if_neg hpa, if_neg fun h => hpa h.2, State.noteGpu_gpuOut, List.append_nil]

/-- Settles O44: each transition is the equation of its message; the frame of a data message is what the peripheral can
change. -/
theorem busTakesFourTransitions : Obligations.BusTakesFourTransitions := by
  intro s p pa v hu
  refine ⟨fun hb => ⟨busAddress_idle hb hu _ _ _, busAddress_idle hb hu _ _ _⟩,
    fun hb => ⟨busAddress_busy hb _ _ _ _, busAddress_busy hb _ _ _ _⟩, fun hs hb => ?read, fun hs hr hb => ?write⟩
  case read =>
    refine ⟨_, busData_read hb hs, rfl, ?_⟩
    obtain ⟨lg, hn⟩ := s.noteRead_eq p pa
    rw [hn]
    exact ⟨rfl, sameStorage_of rfl rfl rfl rfl rfl, ⟨rfl, rfl, rfl, rfl⟩, rfl, rfl, rfl, rfl, rfl, rfl, rfl⟩
  case write =>
    refine ⟨_, _, busData_write hb hs, rfl, ?_⟩
    have hcell := State.byteAt_peripheralTakes (s := s.emit (.dataFromCpu p v)) hr p pa v
    have hout := (s.emit (.dataFromCpu p v)).peripheralTakes_gpuOut p pa v
    obtain ⟨m, out, lg, ht⟩ := (s.emit (.dataFromCpu p v)).peripheralTakes_eq p pa v
    rw [ht] at hcell hout ⊢
    exact ⟨rfl, storesCell_of rfl hcell, hout, ⟨rfl, rfl, rfl, rfl⟩, rfl, rfl, rfl, rfl, rfl, rfl, rfl⟩

/-! ## Systems that cannot run -/

theorem busRead_silent {s : State} {p : Peripheral} (hb : s.bus = .idle) (hu : unitLife s.units p ≠ .running)
    (pa : PAddr) : busRead p pa s = .fault (.waitingFor p) := by
  rw [busRead, busAddress_silent hb hu, andThen_fault]

theorem busWrite_silent {s : State} {p : Peripheral} (hb : s.bus = .idle) (hu : unitLife s.units p ≠ .running)
    (pa : PAddr) (b : Byte) : busWrite p pa b s = .fault (.waitingFor p) := by
  rw [busWrite, busAddress_silent hb hu, andThen_fault]

/-- An address routed to a peripheral is read by a bus transaction with it (R60). -/
theorem memRead_peripheral {s : State} {v : Word} {p : Peripheral} {pa : PAddr}
    (ht : translate s.cfg v = some (storeOf p, pa)) : memRead v s = busRead p pa s := by
  cases p <;> simp only [memRead, ht, storeOf]

/-- An address routed to a peripheral other than the ROM is written by a bus transaction with it (R60, R63). -/
theorem memWrite_peripheral {s : State} {v : Word} {p : Peripheral} {pa : PAddr}
    (ht : translate s.cfg v = some (storeOf p, pa)) (hp : p ≠ .rom) (b : Byte) :
    memWrite v b s = busWrite p pa b s := by
  cases p with
  | ram | gpu => simp only [memWrite, ht, storeOf]
  | rom => exact absurd rfl hp

/-- Settles O45: the access is a transaction with the peripheral, and its address message has no receiver. -/
theorem silentPeripheralSticks : Obligations.SilentPeripheralSticks := by
  intro s v b p pa hb hu ht
  exact ⟨(memRead_peripheral ht).trans (busRead_silent hb hu pa),
    fun hp => (memWrite_peripheral ht hp b).trans (busWrite_silent hb hu pa b)⟩

/-- Construction with an invalid table (R57). -/
theorem constructSystem_invalid {s : State} {e : ConfigError} (h : validateMap s.cfg.map = some e) :
    constructSystem s = .next (s.setLife (.faulted (.configInvalid e))) := by
  simp only [constructSystem, h]

/-- In a faulted system no host command has any effect (R57). -/
theorem hostCommand_faulted {s : State} {r : Fault} (h : s.life = .faulted r) (cmd : HostCommand) :
    hostCommand cmd s = .next s := by
  simp only [hostCommand, h]

/-- A step of a faulted system with no command waiting answers its fault. -/
theorem step_faulted {s : State} {r : Fault} (h : s.life = .faulted r) (hh : s.host = []) : step s = .fault r := by
  simp only [step, hh, cycle, beginStep, h, andThen_fault]

/-- Settles O49: construction leaves the system faulted with the reason, and a faulted system stays as it is. -/
theorem invalidTableNeverRuns : Obligations.InvalidTableNeverRuns := by
  intro s e hl he
  have hc : hostCommand .construct s = constructSystem s := by simp only [hostCommand, hl]
  exact ⟨s.setLife (.faulted (.configInvalid e)), hc.trans (constructSystem_invalid he), rfl,
    hostCommand_faulted rfl, step_faulted rfl⟩

end Sys2Proof.Machine
end

section
/-! PROOFS. The family of the encoding: decoding is the inverse of encoding, and which bytes the decoder refuses. -/

namespace Sys2Proof

/-! ## Decoding is the inverse of encoding -/

/-- The opcode of an instruction's encoding is the one bound to its mnemonic and mode (R104). -/
theorem encode_of_dispatch {i : Instr} {op : Byte} (h : dispatch op = some (i.mnemonic, i.operand.mode)) :
    encode i = op :: i.operand.bytes := by
  rw [encode, (opcodeOf_iff_dispatch _ _ _).2 h]
  rfl

/-- An operand that is read is one its mode makes from two bytes. -/
theorem takeOperand_ofBytes {md : Mode} {bs rest : List Byte} {o : Operand}
    (h : takeOperand md bs = some (o, rest)) : ∃ b1 b2, o = Operand.ofBytes md b1 b2 := by
  unfold takeOperand at h
  split at h <;> cases h <;> exact ⟨_, _, rfl⟩

/-- What the decoder can answer after an opcode byte: the byte is illegal (R108), operand bytes are missing (R100), or the
operand is read and the mnemonic names an instruction with it. The inconsistency of R256 is not among the answers. -/
theorem decode_cons_cases (op : Byte) (bs : List Byte) :
    (dispatch op = none ∧ decode (op :: bs) = .error (.illegalOpcode op)) ∨
    (∃ m md, dispatch op = some (m, md) ∧ takeOperand md bs = none ∧ decode (op :: bs) = .error .truncated) ∨
    (∃ m md o rest i, dispatch op = some (m, md) ∧ takeOperand md bs = some (o, rest) ∧
      Instr.ofForm m o = some i ∧ decode (op :: bs) = .ok (i, rest)) := by
  match hd : dispatch op with
  | none => exact .inl ⟨rfl, by simp only [decode, hd]⟩
  | some (m, md) =>
    match ho : takeOperand md bs with
    | none => exact .inr (.inl ⟨m, md, rfl, ho, by simp only [decode, hd, ho]⟩)
    | some (o, rest) =>
      have hform : (Instr.ofForm m o).isSome = true := by
        obtain ⟨b1, b2, rfl⟩ := takeOperand_ofBytes ho
        exact ofForm_of_dispatch hd b1 b2
      obtain ⟨i, hi⟩ := Option.isSome_iff_exists.1 hform
      exact .inr (.inr ⟨m, md, o, rest, i, rfl, ho, hi, by simp only [decode, hd, ho, hi]⟩)

/-- Bytes decode to an instruction and a rest exactly when they are its encoding followed by the rest (R100, R104). -/
theorem decode_ok_iff {bs : List Byte} {i : Instr} {rest : List Byte} :
    decode bs = .ok (i, rest) ↔ bs = encode i ++ rest := by
  constructor
  · intro h
    cases bs with
    | nil => cases h
    | cons op bs =>
      rcases decode_cons_cases op bs with ⟨-, h'⟩ | ⟨m, md, -, -, h'⟩ | ⟨m, md, o, r, j, hd, ho, hj, h'⟩ <;>
        cases h'.symm.trans h
      obtain ⟨rfl, rfl⟩ := Instr.ofForm_some hj
      obtain ⟨rfl, rfl⟩ := takeOperand_some ho
      rw [encode_of_dispatch hd, List.cons_append]
  · rintro rfl
    obtain ⟨op, he, hd⟩ := encode_eq i
    simp only [he, List.cons_append, decode, hd, takeOperand_bytes, Instr.ofForm_self]

/-- Settles O1: bytes that are an encoding and a rest decode so (`decode_ok_iff`). -/
theorem decodeOfEncode : Obligations.DecodeOfEncode := fun _ _ => decode_ok_iff.2 rfl

/-- Settles O2: the other direction of `decode_ok_iff`. -/
theorem decodedBytesAreTheEncoding : Obligations.DecodedBytesAreTheEncoding := fun _ _ _ => decode_ok_iff.1

/-- Settles O3: each word is the encoding of its instruction, opcode and operand bytes (`decode_ok_iff`). -/
theorem specWordsDecode : Obligations.SpecWordsDecode := by
  refine ⟨?_, ?_, ?_, ?_, ?_, ?_, ?_, ?_, ?_, ?_, ?_⟩ <;> exact decode_ok_iff.2 rfl

/-! ## What the decoder refuses -/

/-- The bytes the dispatch table binds nothing to are the 105 of R108. -/
theorem dispatch_eq_none_iff (op : Byte) : dispatch op = none ↔ op ∈ Machine.illegalOpcodes := by
  revert op
  decide +kernel

/-- An opcode byte is refused as illegal exactly when the dispatch table binds nothing to it. -/
theorem decode_illegal_iff (op : Byte) (rest : List Byte) :
    decode (op :: rest) = .error (.illegalOpcode op) ↔ dispatch op = none := by
  rcases decode_cons_cases op rest with ⟨hd, h⟩ | ⟨m, md, hd, -, h⟩ | ⟨m, md, o, r, i, hd, -, -, h⟩ <;>
    simp [hd, h]

/-- Settles O5: the rows are checked one by one, and no answer of the decoder (`decode_cons_cases`) is the
inconsistency. -/
theorem dispatchInconsistencyIsUnreachable : Obligations.DispatchInconsistencyIsUnreachable := by
  refine ⟨by decide +kernel, fun bs op h => ?_⟩
  cases bs with
  | nil => cases h
  | cons b bs =>
    rcases decode_cons_cases b bs with ⟨-, h'⟩ | ⟨m, md, -, -, h'⟩ | ⟨m, md, o, r, i, -, -, -, h'⟩ <;>
      cases h'.symm.trans h

end Sys2Proof

namespace Sys2Proof.Machine

/-- A step that fetches an illegal opcode ends with the fault that names the byte and its address (R255). -/
theorem step_illegal {s : State} (ho : s.Operational) (hc : s.CanStep) (hd : dispatch (s.peek s.pc) = none) :
    step s = .fault (.illegalOpcode (s.peek s.pc) s.pc) := by
  rw [step_fetch hc, fetch_illegal (s := s.setLife .running) ho hd]
  rfl

/-- Settles O4: an opcode is illegal when the table binds nothing to it (`dispatch_eq_none_iff`), for the decoder
(`decode_illegal_iff`) and for the step (`step_illegal`). -/
theorem illegalOpcodesFault : Obligations.IllegalOpcodesFault :=
  ⟨rfl, fun op rest => (decode_illegal_iff op rest).trans (dispatch_eq_none_iff op),
    fun _ ho hc hm => step_illegal ho hc ((dispatch_eq_none_iff _).2 hm)⟩

end Sys2Proof.Machine
end

section
/-! PROOFS. The family of addressing: a step is its fetch and then the decoded instruction, the effective addresses, the
order of the accesses, and the progress of an operational system. -/

namespace Sys2Proof.Machine

/-! ## A step is the fetch of one instruction and then its effect -/

/-- The dispatch table decides between the two things the bytes at `PC` can be: an illegal opcode, or an instruction, for
three bytes are enough for every mode (R100, R108). -/
theorem decode_window_cases (s : State) :
    dispatch (s.peek s.pc) = none ∨ ∃ i rest, decode s.window = .ok (i, rest) := by
  rcases decode_cons_cases (s.peek s.pc) [s.peek (s.pc + 1), s.peek (s.pc + 2)] with
    ⟨hd, -⟩ | ⟨-, md, -, ho, -⟩ | ⟨-, -, -, rest, i, -, -, -, h⟩
  · exact .inl hd
  · cases md <;> exact nomatch ho
  · exact .inr ⟨i, rest, h⟩

/-- The state an instruction is executed in: the CPU runs, and the instruction's own bytes are read (R120, R121). -/
def State.fetched (s : State) (i : Instr) : State :=
  (s.setLife .running).afterReads (s.fetchReads i.operand.length)

/-- A step whose bytes at `PC` decode is `exec` of the instruction after its fetch (R120). -/
theorem step_decoded {s : State} (ho : s.Operational) (hc : s.CanStep) {i : Instr} {rest : List Byte}
    (hd : decode s.window = .ok (i, rest)) : step s = exec i (s.fetched i) := by
  rw [step_fetch hc, fetch_next (s := s.setLife .running) ho hd]
  rfl

theorem State.fetched_operational {s : State} (ho : s.Operational) (i : Instr) : (s.fetched i).Operational :=
  (State.afterReads_operational (s.setLife .running) _).2 ho

/-- The fetch changes nothing but the lifecycle, the trace and the GPU's log. -/
theorem State.fetched_eq (s : State) (i : Instr) :
    ∃ tr lg, s.fetched i = ((s.setLife .running).setTrace tr).setGpuLog lg :=
  State.afterReads_eq (s.setLife .running) _

/-- The fetch adds the read events of the instruction's bytes to the trace, in order (R121). -/
theorem State.fetched_trace (s : State) (i : Instr) :
    (s.fetched i).trace = readsEvents s (s.fetchReads i.operand.length) ++ s.trace := by
  rw [State.fetched, State.afterReads_trace, readsEvents_congr (t := s.setLife .running) (s := s) rfl fun _ => rfl]
  rfl

/-- Every instruction has a mode its mnemonic supports (R106). -/
theorem wellFormed_eq_true (i : Instr) : i.wellFormed = true := by cases i <;> rfl

/-- An instruction leaves an operational system operational: it writes nothing that `Operational` asks for. -/
theorem operational_after {s : State} (ho : s.Operational) (i : Instr) : (after i s).Operational := by
  obtain ⟨hb, hu, hc⟩ := ho
  obtain ⟨hb', -, hu', hc', -⟩ := after_system i s
  exact ⟨hb'.trans hb, hu'.trans hu, hc' ▸ hc⟩

/-- After the fetch and the instruction the CPU runs and no host command waits: it can step again. -/
theorem canStep_after_fetched {s : State} (hc : s.CanStep) (i : Instr) : (after i (s.fetched i)).CanStep := by
  obtain ⟨-, hl, -, -, hh⟩ := after_system i (s.fetched i)
  obtain ⟨tr, lg, hf⟩ := s.fetched_eq i
  exact ⟨by rw [hh, hf]; exact hc.1, .inr (by rw [hl, hf]; rfl)⟩

/-- Settles O8: the bytes at `PC` are an illegal opcode, which is the fault (`step_illegal`), or an instruction
(`decode_window_cases`), which completes (`exec_next`) and leaves the system as able to step as it was. -/
theorem operationalSystemProgresses : Obligations.OperationalSystemProgresses := by
  intro s ho hc
  rcases decode_window_cases s with hd | ⟨i, rest, hd⟩
  · exact .inr ⟨(dispatch_eq_none_iff _).1 hd, step_illegal ho hc hd⟩
  · have ho1 := State.fetched_operational ho i
    exact .inl ⟨after i (s.fetched i), (step_decoded ho hc hd).trans (exec_next ho1 i), operational_after ho1 i,
      canStep_after_fetched hc i⟩

/-- Settles O6: the step is `exec` after the fetch (`step_decoded`), and the fetch is reads alone (`State.fetched_eq`). -/
theorem stepRunsDecodedInstruction : Obligations.StepRunsDecodedInstruction := by
  intro s i rest ho hc hd
  have htrace := s.fetched_trace i
  have hstep := step_decoded ho hc hd
  obtain ⟨tr, lg, hf⟩ := s.fetched_eq i
  rw [hf] at htrace hstep
  exact ⟨wellFormed_eq_true i, _, hstep, rfl, ⟨rfl, rfl, rfl, rfl⟩, rfl, sameStorage_of rfl rfl rfl rfl rfl, rfl, rfl,
    rfl, rfl, rfl, htrace⟩

/-! ## The effective addresses -/

/-- A byte as an address keeps its value (R103). -/
theorem zext_toNat (b : Byte) : (zext b).toNat = b.toNat := by
  have := b.isLt
  rw [zext, BitVec.toNat_setWidth, Nat.mod_eq_of_lt (by omega)]

/-- An address with an index added, modulo 2^16 (R128, R129, R132). -/
theorem add_zext_toNat (w : Word) (b : Byte) : (w + zext b).toNat = (w.toNat + b.toNat) % 65536 := by
  rw [BitVec.toNat_add, zext_toNat]

/-- A zero-page address with an index added, modulo 256 (R125, R126). -/
theorem zext_add_toNat (b x : Byte) : (zext (b + x)).toNat = (b.toNat + x.toNat) % 256 := by
  rw [zext_toNat, BitVec.toNat_add]

/-- The pointer at a zero-page address as a number, its high byte at `ZpNext` (R131, R132). -/
theorem State.zpWord_toNat (s : State) (zp : Byte) :
    (s.zpWord zp).toNat = (s.peek (zext zp)).toNat + 256 * (s.peek (zpNext s.cfg.zpPtrWrap zp)).toNat :=
  pair_toNat _ _

/-- The resolution of an operand, its address known as a number. -/
theorem effectiveAddress_toNat {s : State} (h : s.Operational) (a : AddrForm) {ea : Nat}
    (hea : (s.address a).toNat = ea % 65536) :
    ∃ s1, effectiveAddress a s = .next (s.address a, s1) ∧ (s.address a).toNat = ea % 65536 ∧
      s1.trace = readsEvents s (s.pointerReads a) ++ s.trace :=
  ⟨_, effectiveAddress_next h a, hea, s.afterReads_trace _⟩

/-- Settles O9: in each mode the reads are `pointerReads` (`effectiveAddress_toNat`); what is left is the address as a
number. -/
theorem effectiveAddressOfEachMode : Obligations.EffectiveAddressOfEachMode := by
  intro s b1 w h
  refine ⟨effectiveAddress_toNat h _ ?zp, effectiveAddress_toNat h _ ?zpx, effectiveAddress_toNat h _ ?zpy,
    effectiveAddress_toNat h _ ?abs, effectiveAddress_toNat h _ ?abx, effectiveAddress_toNat h _ ?aby,
    effectiveAddress_toNat h _ ?ind, effectiveAddress_toNat h _ ?izx, effectiveAddress_toNat h _ ?izy⟩
  case zp => rw [State.address, zext_toNat]; omega
  case zpx | zpy => rw [State.address, zext_add_toNat]; omega
  case abs => rw [State.address]; omega
  case abx | aby => rw [State.address, add_zext_toNat]
  case ind => rw [State.address, State.peekWord, pair_toNat]; omega
  case izx => rw [State.address, State.zpWord_toNat, zpNext]; dsimp only; omega
  case izy => rw [State.address, add_zext_toNat, State.zpWord_toNat, zpNext]

/-! ## The accesses of each instruction, in order -/

/-- A load-class instruction whose effect leaves the trace: the pointer bytes, then the data byte (R135). -/
theorem State.afterLoad_trace (s : State) (src : Source) {k : Byte → State → State}
    (hk : ∀ m t, (k m t).trace = t.trace) :
    (s.afterLoad src k).trace = readsEvents s (s.sourceReads src) ++ s.trace :=
  (hk _ _).trans (s.afterReads_trace _)

/-- `StoreOperand`: the pointer bytes, then the write (R136). -/
theorem State.afterStore_trace (s : State) (a : AddrForm) (v : Byte) :
    (s.afterStore a v).trace =
      writeEvents s.cfg (s.address a) v ++ readsEvents s (s.pointerReads a) ++ s.trace := by
  rw [State.afterStore, State.afterWrite_trace, State.afterReads_trace, State.afterReads_cfg, List.append_assoc]

/-- `ModifyOperand` in memory: the pointer bytes, the data byte, then the write of the result (R136). -/
theorem State.afterModify_memory_trace (s : State) (a : AddrForm) (f : Byte → Flags → Byte × Flags) :
    (s.afterModify (.memory a) f).trace =
      writeEvents s.cfg (s.address a) (f (s.peek (s.address a)) s.flags).1 ++
        readsEvents s (s.pointerReads a ++ [s.address a]) ++ s.trace := by
  rw [State.afterModify, State.setFlags_trace, State.afterWrite_trace, State.afterReads_trace, State.afterReads_cfg,
    List.append_assoc]
  rfl

/-- JMP has two forms (R104). -/
theorem eq_jmp_of_mnemonic_eq {i : Instr} (h : i.mnemonic = .jmp) : (∃ w, i = .jmpAbs w) ∨ ∃ w, i = .jmpInd w := by
  cases i
  case jmpAbs w => exact .inl ⟨w, rfl⟩
  case jmpInd w => exact .inr ⟨w, rfl⟩
  all_goals exact nomatch h

@[simp] theorem State.advance_trace (s : State) (n : Nat) : (s.advance n).trace = s.trace := rfl

/-- Settles O10: the state after the instruction is `after` (`exec_next`); a case for each family of instructions, by the
accesses of its operand. -/
theorem instructionsAccessInOrder : Obligations.InstructionsAccessInOrder := by
  intro i s h
  refine ⟨after i s, exec_next h i, ?_⟩
  cases hm : i.mnemonic <;> simp only [after, hm]
  case lda | ldx | ldy | adc | sbc | cmp | cpx | cpy | and | ora | eor | bit =>
    exact ⟨i.operand.source, Instr.operand_eq_source (by simp [hm]), s.afterLoad_trace _ fun _ _ => rfl⟩
  case sta | stx | sty =>
    exact ⟨i.operand.form, Instr.operand_eq_memory (by simp [hm]), s.afterStore_trace _ _⟩
  case asl | lsr | rol | ror =>
    cases i.operand with
    | memory a =>
      simp [Operand.target, State.afterModify_memory_trace, shiftSetFlags_asl, shiftSetFlags_lsr, shiftSetFlags_rol,
        shiftSetFlags_ror]
    | _ => rfl
  case inc | dec =>
    cases i.operand with
    | memory a =>
      simp [Operand.target, State.afterModify_memory_trace, resultSetFlags, BitVec.ofNat_add, BitVec.sub_eq_add_neg]
    | _ => rfl
  case jmp =>
    rcases eq_jmp_of_mnemonic_eq hm with ⟨w, rfl⟩ | ⟨w, rfl⟩
    · rfl
    · exact s.afterReads_trace [w, w + 1]
  case tax | tay | txa | tya | tsx | txs | inx | iny | dex | dey | clc | sec | cli | sei | cld | sed | clv | nop => rfl
  case pha | php | pla | plp | jsr | rts | rti | brk => rfl
  case bcc | bcs | beq | bne | bmi | bpl | bvc | bvs => rfl

end Sys2Proof.Machine
end

section
/-! PROOFS. The family of arithmetic and compare: what a load-class instruction leaves unchanged, the results and flags of
ADC, SBC and the compares, and that `D` has no part in them. -/

namespace Sys2Proof.Machine

/-! ## What a load-class instruction leaves unchanged -/

/-- A load-class instruction goes past itself, when its effect leaves `PC` (R122). -/
theorem State.pastInstr_afterLoad (s : State) {src : Source} {o : Operand} (ho : o = src.operand)
    {k : Byte → State → State} (hk : ∀ m t, (k m t).pc = t.pc) : PastInstr s (s.afterLoad src k) o := by
  rw [PastInstr, State.afterLoad, State.advance, State.setPc_pc, hk, State.afterReads_pc, ho]

/-- A load-class instruction leaves storage and output unchanged, when its effect is one on registers and flags (R135). -/
theorem State.sameStorage_afterLoad (s : State) (src : Source) {k : Byte → State → State}
    (hk : ∀ m t, k m t = t.withRegistersOf (k m t)) : SameStorage s (s.afterLoad src k) := by
  rw [State.afterLoad, hk]
  exact sameStorage_of (s.afterReads_cfg _) (s.afterReads_privRam _) (s.afterReads_ram _) (s.afterReads_rom _)
    (s.afterReads_gpuOut _)

/-! ## ADC and SBC -/

/-- The effect of ADC and SBC: `A` and the flags become what `f` computes from `A`, the byte read and the flags. -/
def accumulate (f : Byte → Byte → Flags → Byte × Flags) (m : Byte) (t : State) : State := t.putA (f t.a m t.flags)

theorem after_adc {i : Instr} (hm : i.mnemonic = .adc) (s : State) :
    after i s = s.afterLoad i.operand.source (accumulate addWithCarry) := by
  simp only [after, hm]
  rfl

theorem after_sbc {i : Instr} (hm : i.mnemonic = .sbc) (s : State) :
    after i s = s.afterLoad i.operand.source (accumulate subtractSetFlags) := by
  simp only [after, hm]
  rfl

theorem State.afterLoad_accumulate_a (s : State) (src : Source) (f : Byte → Byte → Flags → Byte × Flags) :
    (s.afterLoad src (accumulate f)).a = (f s.a (s.operandValue src) s.flags).1 := by
  simp [State.afterLoad, accumulate]

theorem State.afterLoad_accumulate_flags (s : State) (src : Source) (f : Byte → Byte → Flags → Byte × Flags) :
    (s.afterLoad src (accumulate f)).flags = (f s.a (s.operandValue src) s.flags).2 := by
  simp [State.afterLoad, accumulate]

/-- ADC and SBC change `A`, the flags and `PC` and nothing else (R141, R144). -/
theorem afterLoad_accumulate_frame {i : Instr} {s : State} {f : Byte → Byte → Flags → Byte × Flags}
    (ho : i.operand = i.operand.source.operand)
    (ht : after i s = s.afterLoad i.operand.source (accumulate f)) :
    PastInstr s (after i s) i.operand ∧ SameXYS s (after i s) ∧ SameStorage s (after i s) ∧
      SameSystem s (after i s) := by
  refine ⟨?_, ?_, ?_, after_system i s⟩ <;> rw [ht]
  · exact s.pastInstr_afterLoad ho fun _ _ => rfl
  · simp [SameXYS, State.afterLoad, accumulate]
  · exact s.sameStorage_afterLoad _ fun _ _ => rfl

/-- Settles O11: the state after is `after_adc`, and `addWithCarry_eq` gives the result and the flags as numbers. -/
theorem adcAddsWithCarry : Obligations.AdcAddsWithCarry := by
  refine ⟨rfl, fun i s hm h => ?_⟩
  have ho := Instr.operand_eq_source (i := i) (by simp [hm])
  have ht := after_adc hm s
  refine ⟨i.operand.source, after i s, ho, exec_next h i, ?a, ?flags, afterLoad_accumulate_frame ho ht⟩
  case a => rw [ht, State.afterLoad_accumulate_a, addWithCarry_eq]
  case flags => rw [ht, State.afterLoad_accumulate_flags, addWithCarry_eq]

/-- Settles O12: the state after is `after_sbc`, and `subtractSetFlags_eq` gives the result and the flags as numbers. -/
theorem sbcSubtractsWithBorrow : Obligations.SbcSubtractsWithBorrow := by
  refine ⟨rfl, fun i s hm h => ?_⟩
  have ho := Instr.operand_eq_source (i := i) (by simp [hm])
  have ht := after_sbc hm s
  refine ⟨i.operand.source, after i s, ho, exec_next h i, ?a, ?flags, afterLoad_accumulate_frame ho ht⟩
  case a => rw [ht, State.afterLoad_accumulate_a, subtractSetFlags_eq]
  case flags => rw [ht, State.afterLoad_accumulate_flags, subtractSetFlags_eq]

/-! ## CMP, CPX and CPY -/

/-- The effect of CMP, CPX and CPY: the flags of the register `r` against the byte read. -/
def compareWith (r m : Byte) (t : State) : State := t.setFlags (compareSetFlags r m t.flags)

/-- The three compares differ in the register alone (R146 to R148). -/
theorem after_compare {i : Instr} {s : State} {r : Byte}
    (hr : i.mnemonic = .cmp ∧ r = s.a ∨ i.mnemonic = .cpx ∧ r = s.x ∨ i.mnemonic = .cpy ∧ r = s.y) :
    after i s = s.afterLoad i.operand.source (compareWith r) := by
  rcases hr with ⟨hm, rfl⟩ | ⟨hm, rfl⟩ | ⟨hm, rfl⟩ <;> simp [after, hm, State.afterLoad, compareWith]

/-- Settles O13: the state after is `after_compare`, and `compareSetFlags_eq` gives the flags as numbers. -/
theorem compareSetsCarryZeroNegative : Obligations.CompareSetsCarryZeroNegative := by
  refine ⟨rfl, rfl, rfl, fun i s r h hr => ?_⟩
  have ho : i.operand = i.operand.source.operand := by
    rcases hr with ⟨hm, -⟩ | ⟨hm, -⟩ | ⟨hm, -⟩ <;> exact Instr.operand_eq_source (by simp [hm])
  refine ⟨i.operand.source, after i s, ho, exec_next h i, ?flags, ?past, ?registers, ?storage, after_system i s⟩ <;>
    rw [after_compare hr]
  case flags => simp [State.afterLoad, compareWith, compareSetFlags_eq]
  case past => exact s.pastInstr_afterLoad ho fun _ _ => rfl
  case registers => simp [SameRegisters, SameXYS, State.afterLoad, compareWith]
  case storage => exact s.sameStorage_afterLoad _ fun _ _ => rfl

/-! ## The decimal flag -/

/-- The state with `D` set to `d`. -/
def State.withD (s : State) (d : Bool) : State := { s with flags := { s.flags with d := d } }

/-- Reads go on alike whatever `D` holds. -/
theorem State.afterReads_withD (s : State) (d : Bool) (l : List Word) :
    (s.withD d).afterReads l = (s.afterReads l).withD d := by
  induction l generalizing s with
  | nil => rfl
  | cons v l ih => exact ih (s.afterRead v)

/-- The operand's value and its reads are the same whatever `D` holds. -/
theorem State.operand_withD (s : State) (d : Bool) (src : Source) :
    (s.withD d).operandValue src = s.operandValue src ∧ (s.withD d).sourceReads src = s.sourceReads src := by
  rcases src with m | a
  · exact ⟨rfl, rfl⟩
  · cases a <;> exact ⟨rfl, rfl⟩

/-- A load-class instruction whose effect goes with a change of `D` goes with it as a whole. -/
theorem State.afterLoad_withD (s : State) (d : Bool) (src : Source) {k : Byte → State → State}
    (hk : ∀ m t, k m (t.withD d) = (k m t).withD d) :
    (s.withD d).afterLoad src k = (s.afterLoad src k).withD d := by
  obtain ⟨hv, hr⟩ := s.operand_withD d src
  rw [State.afterLoad, hv, hr, State.afterReads_withD, hk]
  rfl

/-- Settles O14: neither sum nor difference reads `D`, and each leaves it as it was, so that each effect goes with a
change of `D` by `rfl`. -/
theorem decimalFlagHasNoEffect : Obligations.DecimalFlagHasNoEffect := by
  intro i s d hm h
  have hd : after i (s.withD d) = (after i s).withD d := by
    rcases hm with hm | hm
    · rw [after_adc hm, after_adc hm]
      exact s.afterLoad_withD d _ fun _ _ => rfl
    · rw [after_sbc hm, after_sbc hm]
      exact s.afterLoad_withD d _ fun _ _ => rfl
  have hw : (s.withD d).Operational := h
  exact ⟨after i s, exec_next h i, (exec_next hw i).trans (congrArg _ hd)⟩

end Sys2Proof.Machine
end

section
/-! PROOFS. The family of shift and rotate: what a modify-class instruction does with its result and what it leaves
unchanged, and the results and flags of ASL, LSR, ROL and ROR. -/

namespace Sys2Proof.Machine

/-! ## What a modify-class instruction does -/

/-- A modify-class instruction puts its result in `A` or, as one byte write, at the effective address (R136). The flags
and `PC` it writes after that are no part of storage. -/
theorem State.modifiesTarget_afterModify {s : State} (h : s.Operational) (hi : s.Inv) (t : Target)
    (f : Byte → Flags → Byte × Flags) (n : Nat) :
    ModifiesTarget s ((s.afterModify t f).advance n) t (f (s.targetValue t) s.flags).1 := by
  cases t with
  | accumulator => exact ⟨rfl, sameStorage_of rfl rfl rfl rfl rfl⟩
  | memory a =>
    have ha : (s.afterModify (.memory a) f).a = s.a := (s.afterModify_registers (.memory a) f).1 nofun
    have hw : StoresByte s ((s.afterModify (.memory a) f).advance n) (s.address a)
        (f (s.peek (s.address a)) s.flags).1 :=
      storesByte_reads_write hi (s.sourceReads (.memory a)) _ _
    exact ⟨ha, s.address a, _, effectiveAddress_next h a, hw⟩

/-- `ModifyOperand` leaves `PC`, so the instruction goes past itself (R122). -/
theorem State.pastInstr_afterModify (s : State) (t : Target) (f : Byte → Flags → Byte × Flags) (o : Operand) :
    PastInstr s ((s.afterModify t f).advance o.length) o := by
  have hpc : (s.afterModify t f).pc = s.pc := by cases t <;> simp [State.afterModify]
  rw [PastInstr, State.advance, State.setPc_pc, hpc]

/-- An instruction that modifies its target by `f`, where `f` gives `r` and the flags `g` there: `r` goes to the target,
the flags become `g`, and nothing else changes but `PC` (R136, R122). -/
theorem after_modifies {i : Instr} {s : State} (f : Byte → Flags → Byte × Flags) {r : Byte} {g : Flags}
    (h : s.Operational) (hi : s.Inv)
    (ht : after i s = (s.afterModify i.operand.target f).advance i.operand.length)
    (hf : f (s.targetValue i.operand.target) s.flags = (r, g)) :
    ModifiesTarget s (after i s) i.operand.target r ∧ (after i s).flags = g ∧ PastInstr s (after i s) i.operand ∧
      SameXYS s (after i s) ∧ SameSystem s (after i s) := by
  refine ⟨?target, ?flags, ?past, ?xys, after_system i s⟩ <;> rw [ht]
  case target => simpa only [hf] using State.modifiesTarget_afterModify h hi i.operand.target f i.operand.length
  case flags => rw [State.advance_flags, State.afterModify_flags, hf]
  case past => exact s.pastInstr_afterModify _ f i.operand
  case xys => exact (s.afterModify_registers i.operand.target f).2

/-! ## ASL, LSR, ROL and ROR -/

/-- Settles O15: ASL modifies its target (`after_modifies`) by a shift known as numbers (`shiftSetFlags_asl`). -/
theorem aslShiftsLeft : Obligations.AslShiftsLeft := by
  refine ⟨rfl, fun i s hm h hi => ⟨i.operand.target, after i s, _, ?operand, exec_next h i, rfl, ?effect⟩⟩
  case operand => exact Instr.operand_eq_target (by simp [hm])
  case effect => exact after_modifies (shiftSetFlags aslBits) h hi (by simp only [after, hm]) (shiftSetFlags_asl _ _)

/-- Settles O16: LSR modifies its target (`after_modifies`) by a shift known as numbers (`shiftSetFlags_lsr`). -/
theorem lsrShiftsRight : Obligations.LsrShiftsRight := by
  refine ⟨rfl, fun i s hm h hi => ⟨i.operand.target, after i s, _, ?operand, exec_next h i, rfl, ?effect⟩⟩
  case operand => exact Instr.operand_eq_target (by simp [hm])
  case effect => exact after_modifies (shiftSetFlags lsrBits) h hi (by simp only [after, hm]) (shiftSetFlags_lsr _ _)

/-- Settles O17: ROL modifies its target (`after_modifies`) by a rotation known as numbers (`shiftSetFlags_rol`). -/
theorem rolRotatesLeft : Obligations.RolRotatesLeft := by
  refine ⟨rfl, fun i s hm h hi => ⟨i.operand.target, after i s, _, ?operand, exec_next h i, rfl, ?effect⟩⟩
  case operand => exact Instr.operand_eq_target (by simp [hm])
  case effect => exact after_modifies (shiftSetFlags rolBits) h hi (by simp only [after, hm]) (shiftSetFlags_rol _ _)

/-- Settles O18: ROR modifies its target (`after_modifies`) by a rotation known as numbers (`shiftSetFlags_ror`). -/
theorem rorRotatesRight : Obligations.RorRotatesRight := by
  refine ⟨rfl, fun i s hm h hi => ⟨i.operand.target, after i s, _, ?operand, exec_next h i, rfl, ?effect⟩⟩
  case operand => exact Instr.operand_eq_target (by simp [hm])
  case effect => exact after_modifies (shiftSetFlags rorBits) h hi (by simp only [after, hm]) (shiftSetFlags_ror _ _)

end Sys2Proof.Machine
end

section
/-! PROOFS. The family of logic, bit test, increment and decrement: one effect for AND, ORA and EOR, one for INC, DEC and
the steps of the index registers, and what BIT does. -/

namespace Sys2Proof.Machine

/-! ## AND, ORA and EOR -/

/-- The result and flags of a logic instruction with the operation `op` (R160 to R162). -/
def logicSetFlags (op : Byte → Byte → Byte) (a m : Byte) (f : Flags) : Byte × Flags := resultSetFlags (op a m) f

/-- AND, ORA and EOR differ in one operation on bytes, which acts as `g` on every bit. -/
theorem after_logic {i : Instr} {g : Bool → Bool → Bool}
    (hg : i.mnemonic = .and ∧ g = Bool.and ∨ i.mnemonic = .ora ∧ g = Bool.or ∨ i.mnemonic = .eor ∧ g = Bool.xor)
    (s : State) :
    ∃ op : Byte → Byte → Byte, (∀ a m k, (op a m).getLsbD k = g (a.getLsbD k) (m.getLsbD k)) ∧
      after i s = s.afterLoad i.operand.source (accumulate (logicSetFlags op)) := by
  rcases hg with ⟨hm, rfl⟩ | ⟨hm, rfl⟩ | ⟨hm, rfl⟩ <;> simp only [after, hm]
  · exact ⟨(· &&& ·), fun _ _ _ => BitVec.getLsbD_and, rfl⟩
  · exact ⟨(· ||| ·), fun _ _ _ => BitVec.getLsbD_or, rfl⟩
  · exact ⟨(· ^^^ ·), fun _ _ _ => BitVec.getLsbD_xor, rfl⟩

/-- Settles O19: the state after is `after_logic`, so `A` is the operation's result and the flags are those of `A`. -/
theorem logicActsBitwise : Obligations.LogicActsBitwise := by
  refine ⟨rfl, rfl, rfl, fun i s g h hg => ?_⟩
  have ho : i.operand = i.operand.source.operand := by
    rcases hg with ⟨hm, -⟩ | ⟨hm, -⟩ | ⟨hm, -⟩ <;> exact Instr.operand_eq_source (by simp [hm])
  obtain ⟨op, hop, ht⟩ := after_logic hg s
  have ha : (after i s).a = op s.a (s.operandValue i.operand.source) := by rw [ht, State.afterLoad_accumulate_a]; rfl
  refine ⟨i.operand.source, after i s, ho, exec_next h i, ?bits, ?flags, afterLoad_accumulate_frame ho ht⟩
  case bits => intro k _; rw [ha, hop]
  case flags => rw [ha, ht, State.afterLoad_accumulate_flags, logicSetFlags, resultSetFlags_eq]

/-! ## BIT -/

/-- The effect of BIT: the flags of `A` against the byte read. -/
def bitTest (m : Byte) (t : State) : State := t.setFlags (bitTestSetFlags t.a m t.flags)

/-- BIT loads from memory in both its forms (R163). -/
theorem after_bit {i : Instr} (hm : i.mnemonic = .bit) (s : State) :
    after i s = s.afterLoad (.memory i.operand.form) bitTest := by
  have ho : i.operand = .memory i.operand.form := Instr.operand_eq_memory (by simp [hm])
  have hs : i.operand.source = .memory i.operand.form := by rw [ho]; rfl
  simp only [after, hm, hs]
  rfl

/-- Settles O20: the state after is `after_bit`, and `bitTestSetFlags_eq` gives the flags as numbers. -/
theorem bitTestsMemory : Obligations.BitTestsMemory := by
  refine ⟨rfl, fun i s hm h => ?_⟩
  have ho : i.operand = .memory i.operand.form := Instr.operand_eq_memory (by simp [hm])
  refine ⟨i.operand.form, after i s, ho, exec_next h i, ?flags, ?past, ?registers, ?storage, after_system i s⟩ <;>
    rw [after_bit hm]
  case flags => simp [State.afterLoad, bitTest, bitTestSetFlags_eq, State.operandValue]
  case past => exact s.pastInstr_afterLoad ho fun _ _ => rfl
  case registers => simp [SameRegisters, SameXYS, State.afterLoad, bitTest]
  case storage => exact s.sameStorage_afterLoad _ fun _ _ => rfl

/-! ## Steps modulo 256 -/

/-- `v + k` modulo 256 with its flags: an increment for `k = 1`, a decrement for `k = 255` (R164 to R169). -/
def stepSetFlags (k : Nat) (v : Byte) (f : Flags) : Byte × Flags := resultSetFlags (v + BitVec.ofNat 8 k) f

/-- A decrement is a step by 255. -/
theorem resultSetFlags_sub_one (v : Byte) (f : Flags) : resultSetFlags (v - 1) f = stepSetFlags 255 v f := by
  rw [BitVec.sub_eq_add_neg]
  rfl

/-- A step by the value of its result. -/
theorem stepSetFlags_eq (k : Nat) (v : Byte) (f : Flags) :
    stepSetFlags k v f =
      let r := BitVec.ofNat 8 (v.toNat + k)
      (r, { f with z := decide (r.toNat = 0), n := decide (128 ≤ r.toNat) }) := by
  rw [stepSetFlags, resultSetFlags_eq, BitVec.ofNat_add, BitVec.ofNat_toNat, BitVec.setWidth_eq]

/-- INC and DEC modify their target by a step. -/
theorem after_incDec {i : Instr} {k : Nat} (hk : i.mnemonic = .inc ∧ k = 1 ∨ i.mnemonic = .dec ∧ k = 255) (s : State) :
    after i s = (s.afterModify i.operand.target (stepSetFlags k)).advance i.operand.length := by
  rcases hk with ⟨hm, rfl⟩ | ⟨hm, rfl⟩ <;> simp only [after, hm]
  · rfl
  · simp only [resultSetFlags_sub_one]

/-- Settles O21: the state after is `after_incDec`, the target is in memory, and `after_modifies` gives what becomes of
the result. -/
theorem incDecChangeMemoryByOne : Obligations.IncDecChangeMemoryByOne := by
  refine ⟨rfl, rfl, fun i s k h hi hk => ?_⟩
  have ho : i.operand = .memory i.operand.form := by
    rcases hk with ⟨hm, -⟩ | ⟨hm, -⟩ <;> exact Instr.operand_eq_memory (by simp [hm])
  have htgt : i.operand.target = .memory i.operand.form := by rw [ho]; rfl
  obtain ⟨htarget, hflags, hpast, hxys, hsys⟩ := after_modifies _ h hi (after_incDec hk s) (stepSetFlags_eq k _ _)
  rw [htgt] at htarget hflags
  obtain ⟨ha, hstores⟩ := htarget
  exact ⟨i.operand.form, after i s, _, ho, exec_next h i, rfl, hstores, hflags, hpast, ⟨ha, hxys⟩, hsys⟩

/-- INX, INY, DEX and DEY take a step of their register, in every state. -/
theorem exec_indexStep (s : State) :
    exec .inx s = .next ((s.putX (stepSetFlags 1 s.x s.flags)).advance 1) ∧
    exec .iny s = .next ((s.putY (stepSetFlags 1 s.y s.flags)).advance 1) ∧
    exec .dex s = .next ((s.putX (stepSetFlags 255 s.x s.flags)).advance 1) ∧
    exec .dey s = .next ((s.putY (stepSetFlags 255 s.y s.flags)).advance 1) := by
  simp only [← resultSetFlags_sub_one]
  exact ⟨rfl, rfl, rfl, rfl⟩

/-- Settles O22: each is a step (`exec_indexStep`) known as numbers (`stepSetFlags_eq`), its result taken modulo 256. -/
theorem indexStepsWrap : Obligations.IndexStepsWrap := by
  refine ⟨rfl, rfl, rfl, rfl, fun s => ?_⟩
  have hsteps := exec_indexStep s
  simp only [stepSetFlags_eq, BitVec.toNat_ofNat, Nat.reducePow] at hsteps
  exact hsteps

end Sys2Proof.Machine
end

section
/-! PROOFS. The family of load, store and transfer: the effects of LDA, LDX and LDY, what a store writes and what it leaves
unchanged, and the transfers between registers. -/

namespace Sys2Proof.Machine

/-! ## LDA -/

/-- LDA is a load-class instruction whose result is the byte read, whatever `A` held (R180). -/
theorem after_lda {i : Instr} (hm : i.mnemonic = .lda) (s : State) :
    after i s = s.afterLoad i.operand.source (accumulate fun _ => resultSetFlags) := by
  simp only [after, hm]
  rfl

/-- Settles O23: the state after is `after_lda`, so `A` is the operand byte and the flags are those of `A`. -/
theorem ldaLoadsOperand : Obligations.LdaLoadsOperand := by
  refine ⟨rfl, fun i s hm h => ?_⟩
  have ho := Instr.operand_eq_source (i := i) (by simp [hm])
  have ht := after_lda hm s
  have ha : (after i s).a = s.operandValue i.operand.source := by rw [ht, State.afterLoad_accumulate_a]; rfl
  refine ⟨i.operand.source, after i s, ho, exec_next h i, ha, ?flags, afterLoad_accumulate_frame ho ht⟩
  case flags => rw [ha, ht, State.afterLoad_accumulate_flags, resultSetFlags_eq]

/-! ## LDX and LDY -/

/-- The effect of LDX: the byte read goes to `X`, with its `Z` and `N`. -/
def loadX (m : Byte) (t : State) : State := t.putX (resultSetFlags m t.flags)

/-- The effect of LDY: the byte read goes to `Y`, with its `Z` and `N`. -/
def loadY (m : Byte) (t : State) : State := t.putY (resultSetFlags m t.flags)

theorem after_ldx {i : Instr} (hm : i.mnemonic = .ldx) (s : State) :
    after i s = s.afterLoad i.operand.source loadX := by
  simp only [after, hm]
  rfl

theorem after_ldy {i : Instr} (hm : i.mnemonic = .ldy) (s : State) :
    after i s = s.afterLoad i.operand.source loadY := by
  simp only [after, hm]
  rfl

/-- What LDX does to registers and flags (R181). -/
theorem State.afterLoad_loadX (s : State) (src : Source) :
    let t := s.afterLoad src loadX
    t.x = s.operandValue src ∧ t.y = s.y ∧ t.a = s.a ∧ t.sp = s.sp ∧
      t.flags = { s.flags with z := decide (t.x.toNat = 0), n := decide (128 ≤ t.x.toNat) } := by
  simp [State.afterLoad, loadX, resultSetFlags_eq]

/-- What LDY does to registers and flags (R182). -/
theorem State.afterLoad_loadY (s : State) (src : Source) :
    let t := s.afterLoad src loadY
    t.y = s.operandValue src ∧ t.x = s.x ∧ t.a = s.a ∧ t.sp = s.sp ∧
      t.flags = { s.flags with z := decide (t.y.toNat = 0), n := decide (128 ≤ t.y.toNat) } := by
  simp [State.afterLoad, loadY, resultSetFlags_eq]

/-- A load-class instruction whose effect is one on registers and flags, `PC` not among them, goes past itself and changes
nothing else (R135, R122). -/
theorem afterLoad_frame {i : Instr} {s : State} {k : Byte → State → State} (ho : i.operand = i.operand.source.operand)
    (ht : after i s = s.afterLoad i.operand.source k) (hk : ∀ m t, k m t = t.withRegistersOf (k m t))
    (hpc : ∀ m t, (k m t).pc = t.pc) :
    PastInstr s (after i s) i.operand ∧ SameStorage s (after i s) ∧ SameSystem s (after i s) := by
  refine ⟨?past, ?storage, after_system i s⟩ <;> rw [ht]
  case past => exact s.pastInstr_afterLoad ho hpc
  case storage => exact s.sameStorage_afterLoad _ hk

/-- Settles O24: each register's load is known (`State.afterLoad_loadX`, `State.afterLoad_loadY`), and so is its frame
(`afterLoad_frame`). -/
theorem ldxLdyLoadOperand : Obligations.LdxLdyLoadOperand := by
  refine ⟨rfl, rfl, fun i s h => ⟨fun hm => ?ldx, fun hm => ?ldy⟩⟩ <;>
    have ho := Instr.operand_eq_source (i := i) (by simp [hm])
  case ldx =>
    have ht := after_ldx hm s
    obtain ⟨hx, hy, ha, hsp, hflags⟩ := ht ▸ s.afterLoad_loadX i.operand.source
    exact ⟨i.operand.source, after i s, ho, exec_next h i, hx, hy, ha, hsp, hflags,
      afterLoad_frame ho ht (fun _ _ => rfl) fun _ _ => rfl⟩
  case ldy =>
    have ht := after_ldy hm s
    obtain ⟨hy, hx, ha, hsp, hflags⟩ := ht ▸ s.afterLoad_loadY i.operand.source
    exact ⟨i.operand.source, after i s, ho, exec_next h i, hy, hx, ha, hsp, hflags,
      afterLoad_frame ho ht (fun _ _ => rfl) fun _ _ => rfl⟩

/-! ## STA, STX and STY -/

/-- The three stores differ in the register alone (R183 to R185). -/
theorem after_store {i : Instr} {s : State} {r : Byte}
    (hr : i.mnemonic = .sta ∧ r = s.a ∨ i.mnemonic = .stx ∧ r = s.x ∨ i.mnemonic = .sty ∧ r = s.y) :
    after i s = (s.afterStore i.operand.form r).advance i.operand.length := by
  rcases hr with ⟨hm, rfl⟩ | ⟨hm, rfl⟩ | ⟨hm, rfl⟩ <;> simp only [after, hm]

/-- `StoreOperand` writes one byte at the effective address (R136); `PC`, written after it, is no part of storage. -/
theorem State.storesByte_afterStore {s : State} (h : s.Operational) (hi : s.Inv) (a : AddrForm) (r : Byte) (n : Nat) :
    ∃ ea s1, effectiveAddress a s = .next (ea, s1) ∧ StoresByte s ((s.afterStore a r).advance n) ea r :=
  have hw : StoresByte s ((s.afterStore a r).advance n) (s.address a) r :=
    storesByte_reads_write hi (s.pointerReads a) _ _
  ⟨s.address a, _, effectiveAddress_next h a, hw⟩

/-- `StoreOperand` leaves `PC`, so the instruction goes past itself (R122). -/
theorem State.pastInstr_afterStore (s : State) (a : AddrForm) (r : Byte) (o : Operand) :
    PastInstr s ((s.afterStore a r).advance o.length) o := by
  rw [PastInstr, State.advance, State.setPc_pc, State.afterStore, State.afterWrite_pc, State.afterReads_pc]

/-- Settles O25: the state after is `after_store`; the byte goes to the effective address (`State.storesByte_afterStore`)
after the pointer reads (`State.afterStore_trace`), and a store writes no register and no flag. -/
theorem storesWriteOneByte : Obligations.StoresWriteOneByte := by
  refine ⟨rfl, rfl, rfl, fun i s r h hi hr => ?_⟩
  have ho : i.operand = .memory i.operand.form := by
    rcases hr with ⟨hm, -⟩ | ⟨hm, -⟩ | ⟨hm, -⟩ <;> exact Instr.operand_eq_memory (by simp [hm])
  refine ⟨i.operand.form, after i s, ho, exec_next h i, ?stores, ?trace, ?past, ?registers, ?flags, after_system i s⟩ <;>
    rw [after_store hr]
  case stores => exact State.storesByte_afterStore h hi _ _ _
  case trace => rw [State.advance_trace, State.afterStore_trace]
  case past => exact s.pastInstr_afterStore _ _ _
  case registers => simp [SameRegisters, SameXYS]
  case flags => rw [State.advance_flags, State.afterStore_flags]

/-! ## The transfers -/

/-- Each transfer writes its destination register, with the flags of the value but for TXS, in every state. -/
theorem exec_transfer (s : State) :
    exec .tax s = .next ((s.putX (resultSetFlags s.a s.flags)).advance 1) ∧
    exec .tay s = .next ((s.putY (resultSetFlags s.a s.flags)).advance 1) ∧
    exec .txa s = .next ((s.putA (resultSetFlags s.x s.flags)).advance 1) ∧
    exec .tya s = .next ((s.putA (resultSetFlags s.y s.flags)).advance 1) ∧
    exec .tsx s = .next ((s.putX (resultSetFlags s.sp s.flags)).advance 1) ∧
    exec .txs s = .next ((s.setSp s.x).advance 1) := ⟨rfl, rfl, rfl, rfl, rfl, rfl⟩

/-- Settles O26: each transfer is `exec_transfer`, and `resultSetFlags_eq` gives its flags as numbers. -/
theorem transfersCopyRegister : Obligations.TransfersCopyRegister := by
  refine ⟨rfl, rfl, rfl, rfl, rfl, rfl, fun s => ?_⟩
  have htransfers := exec_transfer s
  simp only [resultSetFlags_eq] at htransfers
  exact htransfers

end Sys2Proof.Machine
end

section
/-! PROOFS. The family of stack, subroutine and break: the byte and the word a pull gives, the bytes a push changes, that a
pull undoes a push, and the instructions built from them. -/

namespace Sys2Proof.Machine

/-! ## The halves of a word -/

theorem loByte_eq (w : Word) : loByte w = BitVec.ofNat 8 w.toNat := by
  rw [loByte, BitVec.extractLsb', Nat.shiftRight_zero]

theorem hiByte_eq (w : Word) : hiByte w = BitVec.ofNat 8 (w.toNat / 256) := by
  rw [hiByte, BitVec.extractLsb', Nat.shiftRight_eq_div_pow]

theorem pair_hiByte_loByte (w : Word) : pair (hiByte w) (loByte w) = w := by
  have := w.isLt
  apply BitVec.eq_of_toNat_eq
  rw [pair_toNat, loByte_eq, hiByte_eq, BitVec.toNat_ofNat, BitVec.toNat_ofNat]
  omega

/-! ## Pulls -/

theorem State.pulled_eq (s : State) : s.pulled = s.byteAt .privRam (0x100 + (s.sp.toNat + 1) % 256) := by
  rw [State.pulled, BitVec.toNat_add]
  rfl

/-- The word pulled as a number: low byte first, the high byte from one place above (R203). -/
theorem State.pulledWord_eq (s : State) :
    s.pulledWord = BitVec.ofNat 16
      ((s.byteAt .privRam (0x100 + (s.sp.toNat + 1) % 256)).toNat +
        256 * (s.byteAt .privRam (0x100 + (s.sp.toNat + 2) % 256)).toNat) := by
  have hhigh : (s.setSp (s.sp + 1)).pulled = s.byteAt .privRam (0x100 + (s.sp.toNat + 2) % 256) := by
    rw [State.pulled_eq, State.setSp_sp, BitVec.toNat_add, Nat.mod_add_mod]
    rfl
  rw [State.pulledWord, hhigh, s.pulled_eq, ← pair_toNat, BitVec.ofNat_toNat, BitVec.setWidth_eq]

/-- PLA and PLP pull one byte, each for its own destination (R205, R207). -/
theorem exec_pull {s : State} (h : s.Operational) :
    exec .pla s = .next (((s.setSp (s.sp + 1)).putA (resultSetFlags s.pulled s.flags)).advance 1) ∧
    exec .plp s = .next (((s.setSp (s.sp + 1)).setFlags (unpackFlags s.pulled)).advance 1) :=
  ⟨exec_next h .pla, exec_next h .plp⟩

/-- Settles O28: the two instructions are `exec_pull`, the byte pulled is `State.pulled_eq`, and `resultSetFlags_eq` gives
PLA's flags as numbers. -/
theorem pullsReadStackCell : Obligations.PullsReadStackCell := by
  refine ⟨rfl, rfl, fun s h => ?_⟩
  have hpull := exec_pull h
  have hsp : s.sp + 1 = BitVec.ofNat 8 (s.sp.toNat + 1) := by
    rw [BitVec.ofNat_add, BitVec.ofNat_toNat, BitVec.setWidth_eq]
    rfl
  rw [hsp, resultSetFlags_eq, s.pulled_eq] at hpull
  exact hpull

/-- RTI pulls the status byte and a word above it, three places in all (R210). -/
theorem exec_rti {s : State} (h : s.Operational) :
    exec .rti s = .next (((s.setFlags (unpackFlags s.pulled)).setSp (s.sp + 3)).setPc
      (s.setSp (s.sp + 1)).pulledWord) := by
  have hsp : s.sp + 1 + 2 = s.sp + 3 := BitVec.add_assoc _ _ _
  rw [← hsp]
  exact exec_next h .rti

/-- Settles O32: the status is the byte pulled (`State.pulled_eq`), and `PC` is the word pulled from one place above it
(`State.pulledWord_eq`). -/
theorem rtiRestoresStatusAndPc : Obligations.RtiRestoresStatusAndPc := by
  refine ⟨rfl, fun s h => ?_⟩
  have hrti := exec_rti h
  rw [s.pulled_eq, State.pulledWord_eq, State.setSp_sp, BitVec.toNat_add, Nat.mod_add_mod, Nat.mod_add_mod] at hrti
  exact hrti

/-! ## Pushes -/

theorem State.afterPush_afterPush_sp (s : State) (v u : Byte) : ((s.afterPush v).afterPush u).sp = s.sp - 2 :=
  BitVec.sub_sub s.sp 1 1

/-- No two neighbouring places of the stack page are the same cell, across the wrap too. -/
theorem stackCell_sub_one_ne (sp : Byte) : stackCell (sp - 1) ≠ stackCell sp := by
  intro h
  obtain ⟨-, h⟩ := Prod.mk.inj (Option.some.inj h)
  bv_omega

/-- The bytes of storage after two pushes: the two cells from `SP` down hold what was pushed (R202). -/
theorem State.byteAt_afterPush_afterPush {s : State} (hi : s.Inv) (v u : Byte) (st : Store) (off : Nat) :
    ((s.afterPush v).afterPush u).byteAt st off =
      if stackCell (s.sp - 1) = some (st, off) then u
      else if stackCell s.sp = some (st, off) then v
      else s.byteAt st off := by
  obtain ⟨hfirst, -⟩ := storesCell_afterPush hi v
  obtain ⟨hsecond, -⟩ := storesCell_afterPush (State.inv_afterPush hi v) u
  rw [hsecond, hfirst]
  rfl

/-- An address reads as before two pushes, when neither of the two cells is behind it. -/
theorem State.peek_afterPush_afterPush {s : State} (hi : s.Inv) (v u : Byte) {w : Word}
    (hw : cellOf s.cfg w ≠ stackCell s.sp) (hw' : cellOf s.cfg w ≠ stackCell (s.sp - 1)) :
    ((s.afterPush v).afterPush u).peek w = s.peek w := by
  obtain ⟨-, hfirst⟩ := storesCell_afterPush hi v
  obtain ⟨-, hsecond⟩ := storesCell_afterPush (State.inv_afterPush hi v) u
  rw [hsecond w (.inr hw'), hfirst w (.inr hw)]

/-- Two bytes pushed are pulled back as a word, the one pushed last as its low byte, whatever `SP` (R203). -/
theorem State.pulledWord_afterPush_afterPush {s : State} (hi : s.Inv) (v u : Byte) :
    ((s.afterPush v).afterPush u).pulledWord = pair v u := by
  have hbytes := State.byteAt_afterPush_afterPush hi v u .privRam
  have hlow : ((s.afterPush v).afterPush u).pulled = u := by
    change ((s.afterPush v).afterPush u).byteAt .privRam (0x100 + (s.sp - 1 - 1 + 1).toNat) = u
    rw [BitVec.sub_add_cancel, hbytes]
    exact if_pos rfl
  have hhigh : (((s.afterPush v).afterPush u).setSp (s.sp - 1 - 1 + 1)).pulled = v := by
    change ((s.afterPush v).afterPush u).byteAt .privRam (0x100 + (s.sp - 1 - 1 + 1 + 1).toNat) = v
    rw [BitVec.sub_add_cancel, BitVec.sub_add_cancel, hbytes]
    exact (if_neg (stackCell_sub_one_ne s.sp)).trans (if_pos rfl)
  exact congrArg₂ pair hhigh hlow

theorem State.pulledWord_afterPushWord {s : State} (hi : s.Inv) (w : Word) :
    ((s.afterPush (hiByte w)).afterPush (loByte w)).pulledWord = w := by
  rw [State.pulledWord_afterPush_afterPush hi, pair_hiByte_loByte]

/-- Settles O34: the word pulled is `State.pulledWord_eq`, and after a push of `w` it is `w`
(`State.pulledWord_afterPushWord`). -/
theorem pushedWordIsPulledBack : Obligations.PushedWordIsPulledBack := by
  intro s w h
  refine ⟨?pull, fun hi => ?roundTrip⟩
  case pull =>
    rw [pullWord_next h, s.pulledWord_eq]
    rfl
  case roundTrip =>
    have hsp := s.afterPush_afterPush_sp (hiByte w) (loByte w)
    have hpull := pullWord_next (s := (s.afterPush (hiByte w)).afterPush (loByte w)) h
    rw [State.pulledWord_afterPushWord hi, hsp, BitVec.sub_add_cancel] at hpull
    exact ⟨_, _, pushWord_next h w, hsp, hpull, State.setSp_sp _ _⟩

/-- A byte is known by its bits, so it is `Pack()` when it has the flags at their places (R26). -/
theorem eq_packFlags {bit5 : Bool} {f : Flags} {v : Byte}
    (hv : v.getLsbD 0 = f.c ∧ v.getLsbD 1 = f.z ∧ v.getLsbD 2 = f.i ∧ v.getLsbD 3 = f.d ∧ v.getLsbD 4 = f.b ∧
      v.getLsbD 5 = bit5 ∧ v.getLsbD 6 = f.v ∧ v.getLsbD 7 = f.n) : v = packFlags bit5 f := by
  obtain ⟨h0, h1, h2, h3, h4, h5, h6, h7⟩ := packFlags_bits bit5 f
  obtain ⟨v0, v1, v2, v3, v4, v5, v6, v7⟩ := hv
  refine BitVec.eq_of_getLsbD_eq fun k hk => ?_
  interval_cases k
  exacts [v0.trans h0.symm, v1.trans h1.symm, v2.trans h2.symm, v3.trans h3.symm, v4.trans h4.symm, v5.trans h5.symm,
    v6.trans h6.symm, v7.trans h7.symm]

/-- Settles O27: PHA and PHP are a push of `A` or of `Pack()` (`eq_packFlags`), and a push changes the one cell `SP`
designates (`storesCell_afterPush`). -/
theorem pushesWriteStackCell : Obligations.PushesWriteStackCell := by
  refine ⟨rfl, rfl, fun i s v h hi hv => ?_⟩
  have hexec : exec i s = .next ((s.afterPush v).advance 1) := by
    rcases hv with ⟨rfl, rfl⟩ | ⟨rfl, hv⟩
    · exact exec_next h .pha
    · rw [eq_packFlags hv]
      exact exec_next h .php
  have hsp : (s.sp - 1).toNat = (s.sp.toNat + 255) % 256 := by
    rw [BitVec.toNat_sub, Nat.add_comm]
    rfl
  exact ⟨_, hexec, storesCell_afterPush hi v, rfl, hsp, rfl, rfl, rfl, rfl, rfl, rfl, ⟨rfl, rfl, rfl, rfl, rfl⟩⟩

/-! ## JSR and RTS -/

/-- JSR pushes `PC + 2` and jumps (R208). -/
theorem exec_jsr {s : State} (h : s.Operational) (w : Word) :
    exec (.jsr w) s =
      .next (((s.afterPush (hiByte (s.pc + 2))).afterPush (loByte (s.pc + 2))).setPc w) := exec_next h (.jsr w)

/-- Settles O30: the two pushes of `PC + 2`, high byte first, give `SP`, the bytes and what every address reads. -/
theorem jsrPushesReturnAddress : Obligations.JsrPushesReturnAddress := by
  refine ⟨rfl, fun s w h hi => ⟨_, exec_jsr h w, rfl, ?sp, rfl, rfl, rfl, rfl, rfl, rfl, ?system, ?bytes, ?reads⟩⟩
  case sp => exact s.afterPush_afterPush_sp (hiByte (s.pc + 2)) (loByte (s.pc + 2))
  case system => exact ⟨rfl, rfl, rfl, rfl, rfl⟩
  case bytes =>
    rw [← loByte_eq, ← hiByte_eq]
    exact State.byteAt_afterPush_afterPush hi _ _
  case reads => exact fun v hv hv' => State.peek_afterPush_afterPush hi _ _ hv hv'

/-- RTS goes past the word it pulls (R209). -/
theorem exec_rts {s : State} (h : s.Operational) :
    exec .rts s = .next ((s.setSp (s.sp + 2)).setPc (s.pulledWord + 1)) := exec_next h .rts

/-- Settles O31: the word pulled is `State.pulledWord_eq`, and after a JSR it is `PC + 2`
(`State.pulledWord_afterPushWord`). -/
theorem rtsReturnsPastWord : Obligations.RtsReturnsPastWord := by
  refine ⟨rfl, fun s h => ?returns, fun s w h hi => ?resumes⟩
  case returns =>
    rw [exec_rts h, s.pulledWord_eq, BitVec.ofNat_add _ 1]
    rfl
  case resumes =>
    refine ⟨_, _, exec_jsr h w, exec_rts h, ?pc, ⟨rfl, rfl, rfl, ?sp⟩, rfl⟩
    case pc =>
      calc _ = s.pc + 2 + 1 := congrArg (· + 1) (State.pulledWord_afterPushWord hi (s.pc + 2))
        _ = s.pc + 3 := BitVec.add_assoc _ _ _
    case sp =>
      rw [State.setPc_sp, State.setSp_sp, State.setPc_sp, State.afterPush_afterPush_sp, BitVec.sub_add_cancel]

/-! ## BRK -/

/-- Settles O33: BRK is its signal (`raiseBreak`) and the advance of `PC`, in every state. -/
theorem brkSetsFlagAndSignals : Obligations.BrkSetsFlagAndSignals := ⟨rfl, fun _ => rfl⟩

end Sys2Proof.Machine
end

section
/-! PROOFS. The family of branches and jumps: the branch target as a number, the state after each branch, and the state
after each form of JMP. -/

namespace Sys2Proof.Machine

/-! ## The branches -/

/-- The displacement is a signed number, and the target is taken modulo 2^16 (R134). -/
theorem branchTarget_eq (pc : Word) (d : Byte) : branchTarget pc d = BitVec.ofInt 16 (pc.toNat + 2 + d.toInt) := by
  have hpc : BitVec.ofInt 16 pc.toNat = pc := by rw [BitVec.ofInt_natCast, BitVec.ofNat_toNat, BitVec.setWidth_eq]
  rw [BitVec.ofInt_add, BitVec.ofInt_add, hpc]
  rfl

/-- The one form of the eight branches, its target as a number (R220). -/
theorem branchIf_eq (cond : Bool) (d : Byte) (s : State) :
    branchIf cond d s =
      .next (s.setPc (if cond then BitVec.ofInt 16 (s.pc.toNat + 2 + d.toInt) else s.pc + 2)) := by
  rw [branchIf, branchTarget_eq]

/-- Each branch is `branchIf` on the flag its rule names (R221 to R228). -/
theorem exec_branch (s : State) (d : Byte) :
    exec (.bcc d) s = branchIf (!s.flags.c) d s ∧ exec (.bcs d) s = branchIf s.flags.c d s ∧
    exec (.beq d) s = branchIf s.flags.z d s ∧ exec (.bne d) s = branchIf (!s.flags.z) d s ∧
    exec (.bmi d) s = branchIf s.flags.n d s ∧ exec (.bpl d) s = branchIf (!s.flags.n) d s ∧
    exec (.bvc d) s = branchIf (!s.flags.v) d s ∧ exec (.bvs d) s = branchIf s.flags.v d s :=
  ⟨rfl, rfl, rfl, rfl, rfl, rfl, rfl, rfl⟩

/-- Settles O35: each branch is `branchIf` on its flag (`exec_branch`), and `branchIf_eq` gives its target as a number. -/
theorem branchesMovePc : Obligations.BranchesMovePc := by
  refine ⟨rfl, rfl, rfl, rfl, rfl, rfl, rfl, rfl, fun s d => ?_⟩
  have hbranch := exec_branch s d
  simp only [branchIf_eq] at hbranch
  exact hbranch

/-! ## JMP -/

/-- JMP Indirect goes to the word at `w`, after the two reads of its bytes (R229, R130). -/
theorem exec_jmpInd {s : State} (h : s.Operational) (w : Word) :
    exec (.jmpInd w) s = .next ((s.afterReads [w, w + 1]).setPc (s.peekWord w)) := exec_next h (.jmpInd w)

/-- Reads and a write of `PC` change no storage (R62, R66). -/
theorem State.sameStorage_afterReads_setPc (s : State) (l : List Word) (v : Word) :
    SameStorage s ((s.afterReads l).setPc v) :=
  sameStorage_of (s.afterReads_cfg l) (s.afterReads_privRam l) (s.afterReads_ram l) (s.afterReads_rom l)
    (s.afterReads_gpuOut l)

/-- Settles O36: the absolute form writes `PC` alone; the indirect form is `exec_jmpInd`, whose target is the word read
(`pair_toNat`) and whose reads change no register, flag or storage. -/
theorem jmpGoesToTarget : Obligations.JmpGoesToTarget := by
  refine ⟨rfl, fun _ _ => rfl, fun s w h => ⟨_, exec_jmpInd h w, ?target, ?registers, ?flags, ?storage, ?system⟩⟩
  case target => exact pair_toNat _ _
  case registers => simp [SameRegisters, SameXYS]
  case flags => rw [State.setPc_flags, State.afterReads_flags]
  case storage => exact s.sameStorage_afterReads_setPc _ _
  case system => exact after_system (.jmpInd w) s

end Sys2Proof.Machine
end

section
/-! PROOFS. The family of the flag instructions and NOP: the advance of `PC` by 1 as a state, and the state after each. -/

namespace Sys2Proof.Machine

theorem State.advance_one (s : State) : s.advance 1 = { s with pc := s.pc + 1 } := rfl

/-- A write of the flags and the advance past the opcode are two fields written, and no other. -/
theorem State.setFlags_advance_one (s : State) (f : Flags) :
    (s.setFlags f).advance 1 = { s with flags := f, pc := s.pc + 1 } := by
  rw [State.advance_one, State.setFlags_pc]
  rfl

/-- Each flag instruction sets the flags to the old ones but for its own, and NOP sets none, in every state. -/
theorem exec_flagInstruction (s : State) :
    exec .clc s = .next ((s.setFlags { s.flags with c := false }).advance 1) ∧
    exec .sec s = .next ((s.setFlags { s.flags with c := true }).advance 1) ∧
    exec .cli s = .next ((s.setFlags { s.flags with i := false }).advance 1) ∧
    exec .sei s = .next ((s.setFlags { s.flags with i := true }).advance 1) ∧
    exec .cld s = .next ((s.setFlags { s.flags with d := false }).advance 1) ∧
    exec .sed s = .next ((s.setFlags { s.flags with d := true }).advance 1) ∧
    exec .clv s = .next ((s.setFlags { s.flags with v := false }).advance 1) ∧
    exec .nop s = .next (s.advance 1) := ⟨rfl, rfl, rfl, rfl, rfl, rfl, rfl, rfl⟩

/-- Settles O37: each instruction is `exec_flagInstruction`, and its write and advance are two fields
(`State.setFlags_advance_one`), NOP's one (`State.advance_one`). -/
theorem flagInstructionsWriteOneFlag : Obligations.FlagInstructionsWriteOneFlag := by
  refine ⟨rfl, rfl, rfl, rfl, rfl, rfl, rfl, rfl, fun s => ?_⟩
  have hflags := exec_flagInstruction s
  simp only [State.setFlags_advance_one] at hflags
  rw [State.advance_one] at hflags
  exact hflags

end Sys2Proof.Machine
end

section
/-! PROOFS. The family of the lifecycle: no instruction changes ROM, the reset of the CPU, the bring-up sequence, and the
halt. -/

namespace Sys2Proof.Machine

/-! ## ROM -/

/-- No instruction changes ROM: a byte write, the only shape of `after_shape` that could, leaves it as it is. -/
theorem after_rom (i : Instr) (s : State) : (after i s).rom = s.rom := by
  obtain ⟨b, h, hb⟩ := after_shape i s
  suffices hs : b.rom = s.rom by rw [h]; exact hs
  rcases hb with ⟨l, rfl⟩ | ⟨l, v, d, rfl⟩ | ⟨-, rfl⟩ | ⟨p, d, rfl⟩ | ⟨p, d, q, e, rfl⟩
  · exact s.afterReads_rom l
  · rw [State.afterWrite_rom, State.afterReads_rom]
  · rfl
  · rfl
  · rfl

/-- Settles O54: with no command waiting a step is one instruction after reads (`step_inv`), and neither writes ROM. -/
theorem instructionsKeepRom : Obligations.InstructionsKeepRom := by
  intro s t hh h
  rcases step_inv h with ⟨cmd, rest, hc, -⟩ | ⟨-, -, i, l, rfl⟩
  · exact nomatch hh.symm.trans hc
  · rw [after_rom, State.afterReads_rom, State.setLife_rom]

/-! ## The reset of the CPU -/

theorem hostCommand_resetCpu {s : State} (h : s.life = .ready) : hostCommand .resetCpu s = resetCpu s := by
  simp only [hostCommand, h]

@[simp] theorem State.afterCpuReset_pc (s : State) : s.afterCpuReset.pc = s.peekWord 0xFFFC := rfl

/-- The reset adds the two reads of the vector to the trace, low byte first (R284). -/
theorem State.afterCpuReset_trace (s : State) :
    s.afterCpuReset.trace =
      readEvents s.cfg 0xFFFD (s.peek 0xFFFD) ++ readEvents s.cfg 0xFFFC (s.peek 0xFFFC) ++ s.trace :=
  s.afterReads_trace [0xFFFC, 0xFFFD]

/-- The reset changes nothing but `PC`, the trace and the GPU's log. -/
theorem State.afterCpuReset_eq (s : State) :
    ∃ tr lg, s.afterCpuReset = ((s.setTrace tr).setGpuLog lg).setPc (s.peekWord 0xFFFC) := by
  obtain ⟨tr, lg, h⟩ := s.afterReads_eq [0xFFFC, 0xFFFD]
  exact ⟨tr, lg, by rw [State.afterCpuReset, h]⟩

/-- The reset writes no register, no flag, no storage and no part of the system (R284). -/
theorem State.afterCpuReset_frame (s : State) :
    SameRegisters s s.afterCpuReset ∧ s.afterCpuReset.flags = s.flags ∧ SameStorage s s.afterCpuReset ∧
      SameSystem s s.afterCpuReset := by
  obtain ⟨tr, lg, h⟩ := s.afterCpuReset_eq
  rw [h]
  exact ⟨⟨rfl, rfl, rfl, rfl⟩, rfl, sameStorage_of rfl rfl rfl rfl rfl, ⟨rfl, rfl, rfl, rfl, rfl⟩⟩

/-- Settles O48: the reset completes (`resetCpu_next`), the vector is its two bytes, the high one on top (`pair_toNat`),
and the rest is the frame of the reset. -/
theorem cpuResetLoadsVector : Obligations.CpuResetLoadsVector := by
  intro s hl ho
  exact ⟨s.afterCpuReset, (hostCommand_resetCpu hl).trans (resetCpu_next ho), pair_toNat _ _, s.afterCpuReset_trace,
    s.afterCpuReset_frame⟩

/-! ## The bring-up sequence -/

/-- The system after construction and `reset()` and `run()` of every peripheral: the image is loaded into an empty ROM
(R75), RAM stays empty (R73), and every loop runs (R281). -/
def State.peripheralsUp (s : State) : State :=
  (s.constructed.setRom (Memory.load [] s.cfg.romImage s.cfg.romCap.toNat)).setUnits allRunning

@[simp] theorem State.peripheralsUp_a (s : State) : s.peripheralsUp.a = s.a := by simp [State.peripheralsUp]
@[simp] theorem State.peripheralsUp_x (s : State) : s.peripheralsUp.x = s.x := by simp [State.peripheralsUp]
@[simp] theorem State.peripheralsUp_y (s : State) : s.peripheralsUp.y = s.y := by simp [State.peripheralsUp]
@[simp] theorem State.peripheralsUp_sp (s : State) : s.peripheralsUp.sp = s.sp := by simp [State.peripheralsUp]
@[simp] theorem State.peripheralsUp_flags (s : State) : s.peripheralsUp.flags = s.flags := by simp [State.peripheralsUp]
@[simp] theorem State.peripheralsUp_privRam (s : State) : s.peripheralsUp.privRam = s.privRam := by
  simp [State.peripheralsUp]
@[simp] theorem State.peripheralsUp_ram (s : State) : s.peripheralsUp.ram = [] := by simp [State.peripheralsUp]
@[simp] theorem State.peripheralsUp_rom (s : State) :
    s.peripheralsUp.rom = Memory.load [] s.cfg.romImage s.cfg.romCap.toNat := by simp [State.peripheralsUp]
@[simp] theorem State.peripheralsUp_gpuOut (s : State) : s.peripheralsUp.gpuOut = [] := by simp [State.peripheralsUp]
@[simp] theorem State.peripheralsUp_trace (s : State) : s.peripheralsUp.trace = [] := by simp [State.peripheralsUp]
@[simp] theorem State.peripheralsUp_bus (s : State) : s.peripheralsUp.bus = .idle := by simp [State.peripheralsUp]
@[simp] theorem State.peripheralsUp_life (s : State) : s.peripheralsUp.life = .ready := by simp [State.peripheralsUp]
@[simp] theorem State.peripheralsUp_units (s : State) : s.peripheralsUp.units = allRunning := by
  simp [State.peripheralsUp]
@[simp] theorem State.peripheralsUp_cfg (s : State) : s.peripheralsUp.cfg = s.cfg := by simp [State.peripheralsUp]

theorem State.peripheralsUp_operational {s : State} (hc : configFits s.cfg = true) : s.peripheralsUp.Operational :=
  ⟨s.peripheralsUp_bus, s.peripheralsUp_units, by rw [State.peripheralsUp_cfg, hc]⟩

/-- The commands between construction and the reset of the CPU bring up the peripherals, none of which is closed. -/
theorem runCommands_peripheralsUp (s : State) :
    runCommands bringUp.tail s.constructed = runCommands [.resetCpu] s.peripheralsUp := rfl

/-- The whole sequence of R281 ends in the reset of the CPU, with every peripheral up. -/
theorem runCommands_bringUp {s : State} (hl : s.life = .unconstructed) (hv : validateMap s.cfg.map = none)
    (hc : configFits s.cfg = true) : runCommands bringUp s = .next s.peripheralsUp.afterCpuReset := by
  have hconstruct : hostCommand .construct s = .next s.constructed := by
    simp only [hostCommand, hl, constructSystem_next hv hc]
  have hreset : hostCommand .resetCpu s.peripheralsUp = .next s.peripheralsUp.afterCpuReset :=
    (hostCommand_resetCpu rfl).trans (resetCpu_next (State.peripheralsUp_operational hc))
  calc runCommands bringUp s
      = andThen (hostCommand .construct s) (runCommands bringUp.tail) := rfl
    _ = runCommands [.resetCpu] s.peripheralsUp := by rw [hconstruct, andThen_next, runCommands_peripheralsUp]
    _ = .next s.peripheralsUp.afterCpuReset := by rw [runCommands, hreset, andThen_next, runCommands]

/-- An image loaded into an empty store: its bytes up to the capacity, and then zero (R75). -/
theorem Memory.read_load_nil (bytes : List Byte) (cap k : Nat) :
    (Memory.load [] bytes cap).read k = if k < cap then bytes.getD k 0 else 0 := by
  rw [Memory.read_load [] bytes cap k rfl, show Memory.read [] k = 0 from rfl]
  split_ifs with hboth hcap hcap
  · rfl
  · omega
  · exact (List.getD_eq_default _ _ (by omega)).symm
  · rfl

/-- Settles O47: the sequence completes (`runCommands_bringUp`), ROM holds the loaded image (`Memory.read_load_nil`), and
the reset of the CPU keeps what construction and the peripherals left (`State.afterCpuReset_eq`). -/
theorem bringUpReachesReady : Obligations.BringUpReachesReady := by
  intro s hl hv hc
  refine ⟨_, runCommands_bringUp hl hv hc, ?_⟩
  have htrace := s.peripheralsUp.afterCpuReset_trace
  obtain ⟨tr, lg, ht⟩ := s.peripheralsUp.afterCpuReset_eq
  obtain ⟨-, -, ⟨hpeek, -, -⟩, -⟩ := s.peripheralsUp.afterCpuReset_frame
  have hpc : s.peripheralsUp.afterCpuReset.pc = s.peripheralsUp.afterCpuReset.peekWord 0xFFFC := by
    rw [State.afterCpuReset_pc, State.peekWord, State.peekWord, hpeek, hpeek]
  rw [← hpeek, ← hpeek, State.peripheralsUp_cfg, State.peripheralsUp_trace, List.append_nil] at htrace
  refine ⟨?life, ?bus, ?units, hpc, ?registers, ?flags, ?privRam, ?ram, ?rom, ?output, ?cfg, htrace⟩ <;> rw [ht]
  case registers => simp [SameRegisters, SameXYS]
  case ram => intro k; simp [Memory.read, Memory.unlisted]
  case rom => intro k; simpa using Memory.read_load_nil s.cfg.romImage s.cfg.romCap.toNat k
  all_goals simp

/-! ## The halt -/

/-- A halt of a running system changes the lifecycle alone (R290). -/
theorem hostCommand_halt {s : State} (h : s.life = .running) : hostCommand .halt s = .next (s.setLife .halted) := by
  simp only [hostCommand, h]

/-- A halted system with no command waiting takes no step (R290). -/
theorem step_halted {s : State} (h : s.life = .halted) (hh : s.host = []) : step s = .fault .halted := by
  simp only [step, hh, cycle, beginStep, h, andThen_fault]

/-- Settles O50: the step carries out the halt (`hostCommand_halt`), and the halted system takes none (`step_halted`). -/
theorem haltStopsTheCpu : Obligations.HaltStopsTheCpu := by
  intro s rest hl hh
  refine ⟨?_, step_halted (s := { s with host := rest, life := .halted }) rfl⟩
  rw [step, hh]
  exact hostCommand_halt (s := s.setHost rest) hl

end Sys2Proof.Machine
end
